-- ==== Sys2Proof/Word.lean ====
section
/-! DEFINITION. The byte, and lists of bytes as the management port and the peer line carry them. -/

namespace Sys2Proof

/-- One byte of the cable image, of a peer line body, or of a management record (R4, R103, R196). -/
abbrev Byte := BitVec 8

/-- A 16-bit interval number; distances are taken modulo 65536 (R84). -/
abbrev IntervalNo := BitVec 16

/-- A set of the nine attention causes, bit i for the i-th cause of R196. -/
abbrev CauseSet := BitVec 9

end Sys2Proof
end

