-- ==== Sys2Proof/Syntax.lean ====
section
/-! DEFINITION. The commands of the Fyndel 2408: one constructor for each row of spec/opcode_table.json, and the
types of their operands.  The table gives the rows no operands; those here are the model's (log 1). -/

namespace Sys2Proof

/-- ROLE strap (R1). -/
inductive Role | trunk | leg
deriving DecidableEq, Repr

/-- PLAN strap: 1X1, 1X2, 1X4, 1X8 (R1). -/
inductive Plan | p1x1 | p1x2 | p1x4 | p1x8
deriving DecidableEq, Repr

/-- The three strap pins as sampled at the end of reset (R1). -/
structure Straps where
  role   : Role
  plan   : Plan
  legsel : Fin 8
deriving DecidableEq, Repr

/-- A lane by the numbers of R196: 0..7 are FL0..FL7, 8..15 are CL0..CL7. -/
abbrev Lane := Fin 16
/-- A front lane FL0..FL7. -/
abbrev FLane := Fin 8
/-- A cable lane CL0..CL7. -/
abbrev CLane := Fin 8
/-- A leg number 1..8; 0 stands for all legs where a rule lets it (0.6). -/
abbrev Leg := Fin 9
/-- A station number 0..8 (R2). -/
abbrev Station := Fin 9

/-- The two monitored directions of a context (4, 0.5). -/
inductive Segment | frontIn | cableIn
deriving DecidableEq, Repr

/-- The three transmitter taps (R39, R42). -/
inductive Tap | pre | main | post
deriving DecidableEq, Repr

/-- The direction of a tap wish (R27). -/
inductive TapDir | inc | dec
deriving DecidableEq, Repr

/-- One value for each tap, in the order pre, main, post. -/
structure Triple (α : Type) where
  pre  : α
  main : α
  post : α
deriving DecidableEq, Repr

/-- A tap request field of a tuning frame (R39). -/
inductive TapReq | hold | inc | dec
deriving DecidableEq, Repr

/-- The preset request field of a tuning frame (R39). -/
inductive PresetReq | none | preset | initial
deriving DecidableEq, Repr

/-- A status field of a tuning frame (R39). -/
inductive TapStatus | notUpdated | updated | atMin | atMax
deriving DecidableEq, Repr

/-- The fields of a tuning frame, but for its check (R39). -/
structure TuningFrame where
  reqs     : Triple TapReq
  preset   : PresetReq
  statuses : Triple TapStatus
  ready    : Bool
  closing  : Bool
deriving DecidableEq, Repr

/-- A PAM4 level, lowest to highest (R17, R35). -/
inductive Level | l0 | l1 | l2 | l3
deriving DecidableEq, Repr

/-- What arrives at a lane's expected marker position (R60): a complete marker pattern with the index it names,
the arrival of its first symbol in code symbol times of the lane (R64, log 29) and whether its levels arrive complemented by swapped wires (R17); symbols that form no complete
pattern; or nothing. -/
inductive MarkerRead
  | pattern (index : Fin 16) (arrival : Nat) (swapped : Bool)
  | damaged
  | nothing
deriving DecidableEq, Repr

/-- The class of a decoded codeword (R67). -/
inductive CodewordClass
  | errored (k : Fin 16)
  | uncorrectable
deriving DecidableEq, Repr

/-- What a sender reads at its end mark (R112): both bits recessive, or a dominant bit, the first or the `second`, after
which it chooses the backoff `backoff + 1` of 1..16 bit times (R111). -/
inductive EndMark
  | recessive
  | dominant (second : Bool) (backoff : Fin 16)
deriving DecidableEq, Repr

/-- A command: one row of spec/opcode_table.json. -/
inductive Instr
  -- power and load
  | powerOn
  | endOfReset (straps : Straps)
  /-- `mem` is what bytes 0 to 109 of the one-time memory answer, none where a read is not answered (R5); bit i of
  `signals` is lane i's raw detector output at that moment (R22). -/
  | imageLoadEnd (mem : Option (List Byte)) (signals : BitVec 16)
  -- receivers
  | signalDetectChange (lane : Lane) (present : Bool)
  | presentFlagSet (lane : Lane)
  | seekRunEnd (lane : Lane)
  | signalAbsent (lane : Lane)
  | clockLock (lane : Lane)
  | acquireTimeout (lane : Lane)
  | adaptationComplete (lane : Lane)
  | adaptTimeout (lane : Lane)
  | clockLockLost (lane : Lane)
  -- front receivers and tuning
  | tapWish (lane : FLane) (tap : Tap) (dir : TapDir)
  | settled (lane : FLane)
  | tuningFrameReceived (lane : FLane) (frame : TuningFrame) (checkHolds : Bool)
  | tuningFrameSent (lane : FLane)
  | answerTimerExpiry (lane : FLane)
  | tuningReleaseTimerExpiry (lane : FLane)
  | tuningTimeout (lane : FLane)
  | failureWaitEnd (lane : FLane)
  -- transmitters
  | txModeChangeAtMarker (lane : Lane)
  -- monitor and gearbox
  | markerFound (lane : Lane) (index : Fin 16) (arrival : Nat) (swapped : Bool)
  | markerCheck (lane : Lane) (reading : MarkerRead)
  | codewordClassified (leg : Leg) (seg : Segment) (cls : CodewordClass)
  -- intervals
  | intervalClose
  -- peer line
  | firstBeacon
  /-- `idleRun` is the idle run the station has read by now (R101). -/
  | attemptStart (idleRun : Nat)
  | arbitrationLost
  /-- the backoff chosen is `backoff + 1` bit times (R111) -/
  | attemptAbort (backoff : Fin 16)
  | abortMarkEnd
  | attemptEnd (mark : EndMark)
  /-- `levels` are those the station reads from now on, false dominant and true recessive, the bit that ends the message among
  them (R101, R105) -/
  | messageDiscarded (levels : List Bool := [])
  -- a receive command is the whole message of another station, from its start mark to its end mark, with its priority, sender
  -- and body fields (R101 to R103)
  | beaconReceived (sender : Nat) (body : List Byte) (priority : Fin 4 := 0)
  | alertReceived (sender : Nat) (body : List Byte) (priority : Fin 4 := 0)
  | hushReceived (sender : Nat) (body : List Byte) (priority : Fin 4 := 0)
  | wakeReceived (sender : Nat) (body : List Byte) (priority : Fin 4 := 0)
  | fetchReceived (sender : Nat) (body : List Byte) (priority : Fin 4 := 0)
  | parcelReceived (sender : Nat) (body : List Byte) (priority : Fin 4 := 0)
  | quietTimerExpiry
  | stuckEntry
  | stuckExit
  | beaconTimerExpiry
  | spacingTimerExpiry
  -- roster ageing
  | entryStale (station : Station)
  | entryRemoved (station : Station)
  -- leg timers
  | soloTimerExpiry (leg : Leg)
  | faultHoldExpiry (leg : Leg)
  | upTimerExpiry (leg : Leg)
  | dormancyTimerExpiry (leg : Leg)
  | claimWaitExpiry (leg : Leg)
  | checkTimerExpiry (leg : Leg)
  | supervisionTimerExpiry (leg : Leg)
  | checkReleaseTimerExpiry (leg : Leg)
  -- collection
  | collectAnswerTimeout
  -- management requests, with their argument bytes (R196)
  | readStation
  | readLeg (leg : Byte)
  | readLane (lane : Byte)
  | readRoster (index : Byte)
  | readRecord (leg age : Byte)
  | readCapture (slot record : Byte)
  | readCollection (index : Byte)
  | readAttention
  | restartLeg (leg : Byte)
  | checkSegment (leg : Byte)
  | clearCaptures
  | trigger (leg : Byte)
  | collect (target trig leg criterion : Byte)
  | setEnables (set : BitVec 16)
  | forceCause (set : BitVec 16)
  | locate (on : Byte)
  /-- the bytes of a write transaction that is malformed or names no known request (R195) -/
  | unknownRequest (bytes : List Byte)
  -- attention and indicator
  | throttleExpiry
  | locateBlink
  -- pattern checker
  /-- `level` is the level on the wire, before the polarity bit acts (R17) -/
  | patternCheckerSymbol (lane : CLane) (level : Level)
deriving DecidableEq, Repr

end Sys2Proof
end

