-- ==== Sys2Proof/Decode.lean ====
section
/-! DEFINITION. Reading a command from a word.  spec/opcode_table.json gives no row any bits: the commands are events
and requests, not words, so no word spells one. -/

namespace Sys2Proof

/-- The command a word spells by the table's bits: none, for every word, since no row of the table has bits. -/
def decodeTableWord (_nbits _w : Nat) : Option Instr := none

end Sys2Proof
end

