-- ==== Sys2Proof/Config.lean ====
section
/-! DEFINITION. The free values: what the manual leaves open and no proof may know. -/

namespace Sys2Proof

/-- The byte READ_STATION carries for the line mode: index 0 NORMAL, 1 QUIET, 2 STUCK.
R197 codes a named value by its place in the list where the manual first gives the values, and the manual
gives no list of the line modes.  Free value, log 19. -/
opaque Config.lineModeCode : Fin 3 → Byte

/-- The taps READ_LANE carries for the unused front lane with this index, in the order pre, main, post.
The tuning engine of such a lane does not run (R16, R41) and no rule states a value.  Free value, log 22. -/
opaque Config.unusedFrontTaps : Fin 8 → Byte × Byte × Byte

/-- The raw detector output READ_LANE carries for the unused lane with this index, whose detector is unpowered (R21).
Free value, log 22. -/
opaque Config.unusedDetector : Fin 16 → Bool

/-- The cable-side position READ_LANE carries, where the lane order is reversed, for the unused cable lane with this
index: R18 places only the lanes in use.  Free value, log 22. -/
opaque Config.unusedPosition : Fin 8 → Byte

/-- The byte READ_LANE carries for the marker-lock state of the unused lane with this index, which has none
(R16, 4.2).  Free value, log 22. -/
opaque Config.unusedMarkerLock : Fin 16 → Byte

end Sys2Proof
end

