-- ==== Sys2Proof/Machine/State.lean ====
section
/-! DEFINITION. The state of the Fyndel 2408 as plain data: every piece of state spec/ gives it, block by block (0.2),
the queue of waiting commands, and the state after power-on. -/

namespace Sys2Proof.Machine

/-- A timer: the moment it expires on the model's clock, in nanoseconds; none while it is stopped. -/
abbrev Timer := Option Nat

/-- In which part of a start the chip stands (R1, R19). -/
inductive Phase | inReset | loading | running
deriving DecidableEq, Repr

/-! ## The loaded image (R4 to R13) -/

/-- The action of an alert window (R4, R173). -/
inductive WindowAction | ignore | capture | captureAll
deriving DecidableEq, Repr

/-- One alert window (R4, R172). -/
structure AlertWindow where
  enable : Bool
  action : WindowAction
  base   : BitVec 12
  mask   : BitVec 12
deriving DecidableEq, Repr

/-- Indicator modes in the order of their codes (R4, R200). -/
inductive IndicatorMode | off | on | up | anyUp | good | fault | attention
deriving DecidableEq, Repr

/-- The loaded image, after R7 to R12: one field for each row of the table of R4. -/
structure Image where
  frontClass  : Nat                      -- the front class in use, 1 or 2 (R9)
  frontInvert : Byte
  cableInvert : Byte
  reverse     : Bool
  cableTaps   : Vector (Triple Nat) 8
  frontTaps   : Vector (Triple Nat) 8
  k           : Nat
  depth       : Nat                      -- 16, 32 or 64 (R12)
  capB        : Nat
  capA        : Nat
  lineDelay   : Nat                      -- D
  beaconCode  : Nat
  penalty     : Vector Nat 18
  decay       : Nat
  warn        : Nat
  fail        : Nat
  hyst        : Nat
  markTail    : Nat
  strainFault : Bool
  originMask  : BitVec 4
  windows     : Vector AlertWindow 4
  dormCode    : Nat
  soloCode    : Nat
  indicator   : IndicatorMode
  checkLimit  : Nat
deriving DecidableEq, Repr

/-! ## Lane units (chapter 2) and marker lock (chapter 4) -/

inductive RxState | off | seek | acquire | adapt | locked
deriving DecidableEq, Repr

inductive TxMode | squelch | tune | hold | data | pattern
deriving DecidableEq, Repr

inductive MarkerLock | hunt | found | inLock
deriving DecidableEq, Repr

/-- One lane unit: its receiver, its transmitter, its counters (R21 to R37) and its marker lock (R60 to R63). -/
structure LaneUnit where
  rx              : RxState := .off
  raw             : Bool := false
  present         : Bool := false
  presentRun      : Timer := none
  absentRun       : Timer := none
  seekRun         : Timer := none
  acquireTimer    : Timer := none
  adaptTimer      : Timer := none
  mode            : TxMode := .squelch
  pendingMode     : Option TxMode := none
  lockEntries     : Nat := 0
  lockLosses      : Nat := 0
  acquireTimeouts : Nat := 0
  adaptTimeouts   : Nat := 0
  signalLosses    : Nat := 0
  lock            : MarkerLock := .hunt
  badRun          : Nat := 0
  pos             : Nat := 0
  markerLosses    : Nat := 0
  mismatches      : Nat := 0
deriving DecidableEq, Repr

/-! ## Tuning engines (chapter 3) -/

inductive TuneState | waiting | tuning | closing | done | failed
deriving DecidableEq, Repr

inductive ReqPhase | pending | asking | releasing
deriving DecidableEq, Repr

/-- The outstanding request (R47, R48); `answer` is the status read at entry to RELEASING. -/
structure OutRequest where
  tap    : Tap
  dir    : TapDir
  phase  : ReqPhase
  answer : TapStatus := .notUpdated
deriving DecidableEq, Repr

/-- What the engine reports to the receiver at the end of a wish (R58). -/
inductive WishReport
  | answered (status : TapStatus)
  | abandoned
deriving DecidableEq, Repr

/-- One tuning engine with what its lane's receiver presents to it (R27, R39 to R58).  `reports` holds every report the
receiver has had from it, in their order. -/
structure Tuner where
  st            : TuneState := .waiting
  taps          : Triple Nat := ⟨2, 38, 6⟩
  wish          : Option (Tap × TapDir) := none
  settled       : Bool := false
  req           : Option OutRequest := none
  closedInc     : Triple Bool := ⟨false, false, false⟩
  closedDec     : Triple Bool := ⟨false, false, false⟩
  run           : Nat := 0
  partnerReady  : Bool := false
  partnerStatus : Triple TapStatus := ⟨.notUpdated, .notUpdated, .notUpdated⟩
  seenReqs      : Triple TapReq := ⟨.hold, .hold, .hold⟩
  seenPreset    : PresetReq := .none
  statuses      : Triple TapStatus := ⟨.notUpdated, .notUpdated, .notUpdated⟩
  unconfirmed   : Bool := false
  closingSent   : Nat := 0
  tuneTimer     : Timer := none
  answerTimer   : Timer := none
  releaseTimer  : Timer := none
  failWait      : Timer := none
  failures      : Nat := 0
  abandoned     : Nat := 0
  frameErrors   : Nat := 0
  reports       : List WishReport := []
deriving DecidableEq, Repr

/-! ## Pattern checkers and generators (R35, R36) -/

/-- One cable lane's pattern checker, and the register of its PATTERN generator (`gen`). -/
structure Checker where
  armed   : Bool := false
  dead    : Bool := false      -- the count is pinned at 65535 until disarming
  count   : Nat := 0
  toLoad  : Nat := 0           -- symbols still to be loaded into the register
  reg     : BitVec 31 := 0
  missRun : Nat := 0           -- consecutive differing symbols
  gen     : BitVec 31 := 0
deriving DecidableEq, Repr

/-! ## Gearbox (4.5) -/

inductive Prime | unprimed | priming | primed
deriving DecidableEq, Repr

structure Split where
  prime  : Prime := .unprimed
  bad    : Nat := 0
  losses : Nat := 0
deriving DecidableEq, Repr

/-- A merge; `half` is the good marker of one lane of the pair that waits for its partner: whether it came on the odd
lane, and its arrival in code symbol times (R74). -/
structure Merge where
  prime    : Prime := .unprimed
  badEven  : Nat := 0
  badOdd   : Nat := 0
  losses   : Nat := 0
  pairSkew : Option Nat := none
  half     : Option (Bool × Nat) := none
deriving DecidableEq, Repr

/-! ## Segments, intervals and records (chapters 4 and 5) -/

inductive Align | search | aligned
deriving DecidableEq, Repr

inductive Grade | good | warn | fail
deriving DecidableEq, Repr

/-- Leg states in the order of their codes (R103). -/
inductive LegState | dormant | rising | ready | up | faulted | check
deriving DecidableEq, Repr

/-- Causes in the order of their codes (R103). -/
inductive Cause | none | frontLoss | cableLoss | skew | strain | planMismatch | tuning | gearbox
deriving DecidableEq, Repr

/-- The accumulators of the open interval (R68, R69). -/
structure Accum where
  n         : Nat := 0
  h         : Vector Nat 16 := Vector.replicate 16 0
  u         : Nat := 0
  saturated : Bool := false
  loss      : Bool := true
deriving DecidableEq, Repr

/-- One segment of a context: alignment, accumulators, strain (R64 to R70, R78, R92 to R95). -/
structure Seg where
  align       : Align := .search
  skew        : Option Nat := none
  skewFlag    : Bool := false
  alignLosses : Nat := 0
  skewExcess  : Nat := 0
  acc         : Accum := {}
  strain      : Nat := 0
  grade       : Grade := .good
  failEntries : Nat := 0
  lastReason  : Option Cause := none
deriving DecidableEq, Repr

/-- One segment's part of an interval record (5.3). -/
structure SegRecord where
  n         : Nat
  t         : Nat
  u         : Nat
  dn        : Nat
  strain    : Nat
  grade     : Grade
  loss      : Bool
  saturated : Bool
deriving DecidableEq, Repr

/-- An interval record (5.3, R87). -/
structure Record where
  interval : IntervalNo
  state    : LegState
  grade    : Grade
  front    : SegRecord
  cable    : SegRecord
deriving DecidableEq, Repr

/-! ## Leg contexts (chapter 8) -/

inductive CheckRole | claimant | follower
deriving DecidableEq, Repr

inductive CheckOutcome | pass | fail | aborted | yielded | noPartner
deriving DecidableEq, Repr

/-- The far end's summary of one leg, without its leg number (R136). -/
structure FarSummary where
  state   : LegState
  grade   : Grade
  cableOk : Bool
  frontOk : Bool
  claim   : Bool
  cause   : Cause
deriving DecidableEq, Repr

/-- A far-summary result (R136). -/
inductive FarResult
  | absent
  | stale
  | planDiffers (sum : Option FarSummary)
  | fresh (sum : FarSummary)
deriving DecidableEq, Repr

/-- One leg context (R141), with its segments, its readiness conditions and its ring (R168). -/
structure Ctx where
  front         : Seg := {}
  cable         : Seg := {}
  frontOk       : Bool := false
  cableOk       : Bool := false
  legGrade      : Grade := .good
  state         : LegState := .rising
  cause         : Cause := .none
  retry         : Nat := 0
  held          : Bool := false
  unattended    : Bool := false
  claim         : Bool := false
  role          : Option CheckRole := none
  outcome       : Option CheckOutcome := none
  patternCounts : List Nat := []
  far           : FarResult := .absent
  solo          : Timer := none
  faultHold     : Timer := none
  dormancy      : Timer := none
  up            : Timer := none
  claimWait     : Timer := none
  check         : Timer := none
  supervision   : Timer := none
  release       : Timer := none
  ring          : List Record := []
deriving DecidableEq, Repr

/-! ## Captures (chapter 9) -/

inductive CaptureState | filling | held | retrieved
deriving DecidableEq, Repr

/-- A capture in a slot (R176).  `order` is its place in the opening order (R174), `link` the joining order of the
ALERT it is linked to (R180). -/
structure Capture where
  trig      : Option Byte
  origin    : Station
  leg       : Leg
  cause     : Nat                 -- alert cause code (R103)
  t         : IntervalNo
  first     : Option IntervalNo
  records   : List Record
  truncated : Bool
  isLocal   : Bool
  unshared  : Bool
  state     : CaptureState
  order     : Nat
  link      : Option Nat
deriving DecidableEq, Repr

/-! ## Peer line (chapter 6) -/

inductive LineMode | normal | quiet | stuck
deriving DecidableEq, Repr

inductive MsgKind | beacon | alert | hush | wake | fetch | parcel
deriving DecidableEq, Repr

/-- The class of a message, which is that of its queue (R104, R116). -/
inductive MsgClass | urgent | status | bulk
deriving DecidableEq, Repr

inductive SleepKind | hush | wake
deriving DecidableEq, Repr

inductive Criterion | all | marked | onset
deriving DecidableEq, Repr

/-- The fields of a FETCH (R103). -/
structure Fetch where
  target    : Station
  leg       : Leg
  trig      : Byte
  criterion : Criterion
  cursor    : Byte
deriving DecidableEq, Repr

/-- What a queued message holds until its attempt fills the rest (R109).  An ALERT counts the interval closes since
it joined (R123); a PARCEL's body is fixed, and names the capture its completion releases (R189). -/
inductive MsgBody
  | beacon
  | alert (leg : Leg) (cause : Nat) (closes : Nat)
  | sleep (kind : SleepKind) (leg : Leg)
  | fetch (f : Fetch)
  | parcel (body : List Byte) (release : Option (Fin 8 × Nat))
deriving DecidableEq, Repr

/-- A queued message (R113, R119, R120). -/
structure Msg where
  join  : Nat
  waits : Nat := 0
  fails : Nat := 0
  body  : MsgBody
deriving DecidableEq, Repr

/-- The content of a message as it is sent (R103, R104). -/
structure Frame where
  priority : Nat
  sender   : Station
  kind     : MsgKind
  body     : List Byte
  check    : BitVec 16
deriving DecidableEq, Repr

/-- The attempt under way (R109): which message is locked, what is sent, and the moment its end mark will have been
read, 36 + 9L bit times after the start mark (R102). -/
structure Attempt where
  cls   : MsgClass
  join  : Nat
  frame : Frame
  ends  : Nat
deriving DecidableEq, Repr

/-- Why a BEACON is owed (R117). -/
inductive OwedBeacon | scheduled | change
deriving DecidableEq, Repr

/-- The peer line interface (R101 to R125).  `startMark` is the leading edge of the latest start mark read, from which the
bits of a message are timed (R101); `heard` are the bits of another station's message under way, from its start mark on (R106). -/
structure Line where
  mode           : LineMode := .normal
  idleRun        : Nat := 0
  domRun         : Nat := 0
  underWay       : Bool := false
  startMark      : Option Nat := none
  heard          : List Bool := []
  urgent         : List Msg := []
  status         : List Msg := []
  bulk           : List Msg := []
  nextJoin       : Nat := 0
  attempt        : Option Attempt := none
  abortMark      : Timer := none
  backoff        : Option Nat := none
  owedBeacon     : Option OwedBeacon := none
  owedSleep      : Vector (Option SleepKind) 9 := Vector.replicate 9 none
  owedFetch      : Option Fetch := none
  heldFetch      : Option Fetch := none
  consecFails    : Nat := 0
  quietTimer     : Timer := none
  beaconStarted  : Bool := false
  beaconTimer    : Timer := none
  spacingTimer   : Timer := none
  spacingMark    : Option Nat := none
  trig           : Byte := 0
  synced         : Bool := false
  clash          : Bool := false
  sent           : Nat := 0
  received       : Nat := 0
  lineErrors     : Nat := 0
  failedAttempts : Nat := 0
  retryDiscards  : Nat := 0
  alertDrops     : Nat := 0
  fetchDrops     : Nat := 0
  quietEntries   : Nat := 0
  stuckEntries   : Nat := 0
  slips          : Nat := 0
  clashes        : Nat := 0
deriving DecidableEq, Repr

/-! ## Roster (chapter 7) -/

/-- A leg summary within a roster entry (R126). -/
structure Summary where
  leg : Leg
  sum : FarSummary
deriving DecidableEq, Repr

/-- A roster entry (R126); `heardAt` is the moment its latest BEACON completed, from which its age runs (R132). -/
structure Entry where
  station    : Station
  role       : Role
  plan       : Plan
  frontClass : Nat
  trig       : Byte
  synced     : Bool
  summaries  : List Summary
  heardAt    : Nat
  fresh      : Bool
  heard      : Nat
  differs    : Bool
deriving DecidableEq, Repr

/-! ## Collection unit (R190) -/

/-- A digest (R188). -/
structure Digest where
  frontTail : Nat
  cableTail : Nat
  state     : LegState
  grade     : Grade
  frontU    : Nat
  cableU    : Nat
deriving DecidableEq, Repr

inductive CollState | idle | running | done | failed
deriving DecidableEq, Repr

inductive EndFlag | last | none | notFound
deriving DecidableEq, Repr

structure Collection where
  state     : CollState := .idle
  target    : Station := 0
  trig      : Byte := 0
  leg       : Leg := 1
  criterion : Criterion := .all
  cursor    : Byte := 0
  timeouts  : Nat := 0
  endFlag   : Option EndFlag := Option.none
  truncated : Bool := false
  buffer    : List (Int × Digest) := []
  late      : Nat := 0
  answer    : Timer := Option.none
deriving DecidableEq, Repr

/-! ## Management port (chapter 10) -/

/-- Reply statuses in the order of their codes (R196). -/
inductive Status | ok | unknownRequest | badArgument | busy | notFound
deriving DecidableEq, Repr

/-- A reply record (R196); the body length is the length of `body`. -/
structure Reply where
  status : Status
  code   : Byte
  body   : List Byte
deriving DecidableEq, Repr

structure Port where
  reply      : Reply := ⟨.unknownRequest, 0, []⟩
  causes     : CauseSet := 0
  enables    : CauseSet := 0
  asserted   : Bool := false
  throttle   : Timer := none
  locate     : Bool := false
  blinkLit   : Bool := false
  blinkTimer : Timer := none
deriving DecidableEq, Repr

/-- The nine attention causes in the order of their bits (R196). -/
inductive Attn
  | legChange | gradeChange | captureDone | captureLost | collectDone | checkDone | clash | lineFault | imageNotice
deriving DecidableEq, Repr

/-! ## The whole -/

/-- The default column of R4, ring depth 64 throughout: the built-in default of every role and plan but a trunk 1X8 (R6),
and what the model's image holds before the end of the first load, when nothing reads it (log 6).  The column gives a
disabled window no action; IGNORE stands there, which a disabled window never gives (the model's choice, log 6). -/
def Image.standard : Image where
  frontClass  := 2
  frontInvert := 0
  cableInvert := 0
  reverse     := false
  cableTaps   := Vector.replicate 8 ⟨2, 38, 6⟩
  frontTaps   := Vector.replicate 8 ⟨2, 38, 6⟩
  k           := 6
  depth       := 64
  capB        := 12
  capA        := 4
  lineDelay   := 1
  beaconCode  := 2
  penalty     := #v[0, 0, 0, 0, 0, 0, 0, 0, 1, 2, 4, 8, 16, 32, 64, 128, 255, 255]
  decay       := 1
  warn        := 256
  fail        := 1024
  hyst        := 64
  markTail    := 8
  strainFault := false
  originMask  := 0xF
  windows     := Vector.replicate 4 ⟨false, .ignore, 0, 0⟩
  dormCode    := 2
  soloCode    := 2
  indicator   := .up
  checkLimit  := 0

/-- The state of the part.  `now` (log 3) and `pending` are the model's own; everything else is the spec's. -/
structure State where
  phase          : Phase := .inReset
  now            : Nat := 0
  straps         : Straps := ⟨.trunk, .p1x1, 0⟩
  image          : Image := Image.standard
  imageDefaulted : Bool := false
  imageAdjusted  : Bool := false
  adjust         : BitVec 9 := 0            -- bit i: the i-th kind of R13
  slotCount      : Nat := 0
  lanes          : Vector LaneUnit 16 := Vector.replicate 16 {}
  tuners         : Vector Tuner 8 := Vector.replicate 8 {}
  checkers       : Vector Checker 8 := Vector.replicate 8 {}
  splits         : Vector Split 8 := Vector.replicate 8 {}
  merges         : Vector Merge 8 := Vector.replicate 8 {}
  ctxs           : Vector (Option Ctx) 9 := Vector.replicate 9 none   -- by leg number
  interval       : IntervalNo := 0   -- before the end of the load no interval is open; 0 there is the model's choice (log 6)
  intervalEnd    : Timer := none
  slots          : Vector (Option Capture) 8 := Vector.replicate 8 none
  nextOrder      : Nat := 0
  overflow       : Bool := false
  lost           : Nat := 0
  line           : Line := {}
  roster         : List Entry := []
  peerLost       : Nat := 0
  coll           : Collection := {}
  port           : Port := {}
  pending        : List Instr := []
deriving DecidableEq, Repr

/-- Nothing stops the part: the spec describes no event after which it does not go on (log 5).  No constructor. -/
inductive Fault
deriving DecidableEq, Repr

/-- Why a step has no meaning. -/
inductive Refusal
  /-- Raised by an arm of `exec` whose command has no meaning yet, with its mnemonic; safe.  No arm raises it. -/
  | notModelled (mnemonic : String)
deriving DecidableEq, Repr

/-- The machine right after power-on, before the end of reset (R19): every field at its default above. -/
def State.reset : State := {}

end Sys2Proof.Machine
end

