-- ==== Sys2Proof/Machine/Ops.lean ====
section
/-! DEFINITION. The named operations every family shares: counters, time, what the straps say of the station, access to
lanes, tuners, contexts and the units, attention causes, the cyclic check, and the byte order of numbers. -/

namespace Sys2Proof.Machine

/-! ## Counters and time -/

/-- A saturating count stops at the top of its range (0.6). -/
def satInc (cap n : Nat) : Nat := if n < cap then n + 1 else n

/-- The range 0..65535 of most counts. -/
def cap16 : Nat := 65535

/-- The range 0..1,048,575 of an accumulator (R68). -/
def capAcc : Nat := 1048575

/-- Nanoseconds in `n` microseconds. -/
def usec (n : Nat) : Nat := n * 1000
/-- Nanoseconds in `n` milliseconds. -/
def msec (n : Nat) : Nat := n * 1000000

/-- One bit time of the peer line, 1 us (R101). -/
def bitTime : Nat := usec 1

/-- A timer started now at its full length. -/
def State.start (s : State) (len : Nat) : Timer := some (s.now + len)

/-- The clock stands at least at the moment a timer expires (log 4). -/
def State.reach (s : State) (t : Timer) : State := { s with now := max s.now (t.getD 0) }

/-- The time a timer still runs, in whole milliseconds rounded down; none while it is stopped (R197). -/
def remainingMs (s : State) (t : Timer) : Option Nat := t.map fun d => (d - s.now) / 1000000

/-! ## What the straps say (R2, R3, R15) -/

/-- Legs in the plan (R2). -/
def planLegs : Plan → Nat
  | .p1x1 => 1
  | .p1x2 => 2
  | .p1x4 => 4
  | .p1x8 => 8

/-- Copper lanes per leg, n = 8 / legs (R2). -/
def lanesPerLeg (p : Plan) : Nat := 8 / planLegs p

/-- The station number (R2). -/
def stationOf (st : Straps) : Station :=
  match st.role with
  | .trunk => 0
  | .leg => st.legsel.succ

/-- A leg chip whose station number exceeds the legs in its plan (R3). -/
def strapsOutOfPlan (st : Straps) : Bool :=
  match st.role with
  | .trunk => false
  | .leg => planLegs st.plan < st.legsel.val + 1

/-- The number of leg contexts held (R2). -/
def contextCount (st : Straps) : Nat :=
  match st.role with
  | .trunk => planLegs st.plan
  | .leg => 1

/-- Whether the station holds a context for leg `L` (R14). -/
def holdsLeg (st : Straps) (L : Leg) : Bool :=
  match st.role with
  | .trunk => 1 ≤ L.val && L.val ≤ planLegs st.plan
  | .leg => L.val == st.legsel.val + 1

/-- This station's number. -/
def State.station (s : State) : Station := stationOf s.straps

/-- The out-of-plan condition (R3). -/
def State.outOfPlan (s : State) : Bool := strapsOutOfPlan s.straps

/-- The far station of leg `L`'s context: station L for the trunk, station 0 for a leg chip (R2, R136). -/
def State.farStation (s : State) (L : Leg) : Station :=
  match s.straps.role with
  | .trunk => L
  | .leg => 0

/-- The legs in ascending order (R109, R170). -/
def allLegs : List Leg := [1, 2, 3, 4, 5, 6, 7, 8]

/-- The eight indexes of lanes of one side. -/
def all8 : List (Fin 8) := [0, 1, 2, 3, 4, 5, 6, 7]

/-- The front lane FLk as a lane. -/
def frontLane (k : FLane) : Lane := ⟨k.val, by omega⟩

/-- The cable lane CLk as a lane. -/
def cableLane (k : CLane) : Lane := ⟨k.val + 8, by omega⟩

/-- Whether a lane faces the equipment. -/
def isFront (l : Lane) : Bool := l.val < 8

/-- A lane's number on its side. -/
def laneNo (l : Lane) : Fin 8 := ⟨l.val % 8, by omega⟩

/-- Gearbox ratio 1:2: a leg chip with front class 1 (R15; R9 leaves class 1 only where n is at most 4). -/
def State.gear (s : State) : Bool := s.straps.role == .leg && s.image.frontClass == 1

/-- The leg whose context owns a lane, by the table of R15; none for an unused lane (R16). -/
def State.owner (s : State) (l : Lane) : Option Leg :=
  let n := lanesPerLeg s.straps.plan
  let k := (laneNo l).val
  match s.straps.role with
  | .trunk => some (Fin.ofNat 9 (k / n + 1))
  | .leg =>
    let used := if isFront l && s.gear then 2 * n else n
    if k < used then some s.station else none

/-- The front lanes a context owns, ascending (R15). -/
def State.frontLanes (s : State) (L : Leg) : List FLane := all8.filter fun k => s.owner (frontLane k) == some L

/-- The cable lanes a context owns, ascending (R15). -/
def State.cableLanes (s : State) (L : Leg) : List CLane := all8.filter fun k => s.owner (cableLane k) == some L

/-- A lane's index within its segment: its number minus the first lane of the same side owned by its context (R33). -/
def State.laneIndex (s : State) (l : Lane) : Nat :=
  match s.straps.role with
  | .trunk => (laneNo l).val % lanesPerLeg s.straps.plan
  | .leg => (laneNo l).val

/-- The rate class of a lane: cable lanes class 2, front lanes the front class in use (R15, R21). -/
def State.laneClass (s : State) (l : Lane) : Nat := if isFront l then s.image.frontClass else 2

/-- The marker period of a class, in code symbols (R59). -/
def markerPeriod (cls : Nat) : Nat := if cls = 1 then 17408 else 34816

/-! ## Access -/

/-- Apply a function to each of sixteen lanes. -/
def map16 {α β : Type} (f : Fin 16 → α → β) (v : Vector α 16) : Vector β 16 :=
  #v[f 0 (v.get 0), f 1 (v.get 1), f 2 (v.get 2), f 3 (v.get 3), f 4 (v.get 4), f 5 (v.get 5), f 6 (v.get 6),
    f 7 (v.get 7), f 8 (v.get 8), f 9 (v.get 9), f 10 (v.get 10), f 11 (v.get 11), f 12 (v.get 12),
    f 13 (v.get 13), f 14 (v.get 14), f 15 (v.get 15)]

/-- Apply a function to each of eight units. -/
def map8 {α β : Type} (f : Fin 8 → α → β) (v : Vector α 8) : Vector β 8 :=
  #v[f 0 (v.get 0), f 1 (v.get 1), f 2 (v.get 2), f 3 (v.get 3), f 4 (v.get 4), f 5 (v.get 5), f 6 (v.get 6),
    f 7 (v.get 7)]

/-- Apply a function to each of the nine places indexed by leg or station number. -/
def map9 {α β : Type} (f : Fin 9 → α → β) (v : Vector α 9) : Vector β 9 :=
  #v[f 0 (v.get 0), f 1 (v.get 1), f 2 (v.get 2), f 3 (v.get 3), f 4 (v.get 4), f 5 (v.get 5), f 6 (v.get 6),
    f 7 (v.get 7), f 8 (v.get 8)]

def State.lane (s : State) (l : Lane) : LaneUnit := s.lanes.get l
def State.modLane (l : Lane) (f : LaneUnit → LaneUnit) (s : State) : State :=
  { s with lanes := s.lanes.set l.val (f (s.lanes.get l)) l.isLt }

def State.tuner (s : State) (k : FLane) : Tuner := s.tuners.get k
def State.modTuner (k : FLane) (f : Tuner → Tuner) (s : State) : State :=
  { s with tuners := s.tuners.set k.val (f (s.tuners.get k)) k.isLt }

def State.checker (s : State) (k : CLane) : Checker := s.checkers.get k
def State.modChecker (k : CLane) (f : Checker → Checker) (s : State) : State :=
  { s with checkers := s.checkers.set k.val (f (s.checkers.get k)) k.isLt }

def State.split (s : State) (k : CLane) : Split := s.splits.get k
def State.modSplit (k : CLane) (f : Split → Split) (s : State) : State :=
  { s with splits := s.splits.set k.val (f (s.splits.get k)) k.isLt }

def State.merge (s : State) (k : CLane) : Merge := s.merges.get k
def State.modMerge (k : CLane) (f : Merge → Merge) (s : State) : State :=
  { s with merges := s.merges.set k.val (f (s.merges.get k)) k.isLt }

/-- The context of leg `L`, none where the station holds none (R14). -/
def State.ctx? (s : State) (L : Leg) : Option Ctx := s.ctxs.get L

/-- The context of leg `L` for reading; callers ask `ctx?` first. -/
def State.ctx (s : State) (L : Leg) : Ctx := (s.ctx? L).getD {}

def State.modCtx (L : Leg) (f : Ctx → Ctx) (s : State) : State :=
  match s.ctxs.get L with
  | none => s
  | some c => { s with ctxs := s.ctxs.set L.val (some (f c)) L.isLt }

def Ctx.seg (c : Ctx) : Segment → Seg
  | .frontIn => c.front
  | .cableIn => c.cable

def Ctx.modSeg (g : Segment) (f : Seg → Seg) (c : Ctx) : Ctx :=
  match g with
  | .frontIn => { c with front := f c.front }
  | .cableIn => { c with cable := f c.cable }

def State.modSeg (L : Leg) (g : Segment) (f : Seg → Seg) (s : State) : State := s.modCtx L (Ctx.modSeg g f)

/-- The legs this station holds a context for, ascending. -/
def State.legs (s : State) : List Leg := allLegs.filter fun L => (s.ctx? L).isSome

def State.slot (s : State) (i : Fin 8) : Option Capture := s.slots.get i
def State.setSlot (i : Fin 8) (c : Option Capture) (s : State) : State :=
  { s with slots := s.slots.set i.val c i.isLt }

def State.modLine (f : Line → Line) (s : State) : State := { s with line := f s.line }
def State.modPort (f : Port → Port) (s : State) : State := { s with port := f s.port }
def State.modColl (f : Collection → Collection) (s : State) : State := { s with coll := f s.coll }

/-- Apply an operation for each leg of a list in turn. -/
def forLegs (op : Leg → State → State) (ls : List Leg) (s : State) : State := ls.foldl (fun s L => op L s) s

/-- Apply an operation for each lane number of a list in turn. -/
def forLanes (op : Fin 8 → State → State) (ks : List (Fin 8)) (s : State) : State := ks.foldl (fun s k => op k s) s

/-! ## Choosing -/

/-- The better of the choice so far and one member more. -/
def better {α : Type} (before : α → α → Bool) (best : Option α) (x : α) : Option α :=
  match best with
  | none => some x
  | some y => if before x y then some x else some y

/-- The member of a list that comes before the others; the earliest in the list where none does. -/
def firstBy {α : Type} (before : α → α → Bool) (xs : List α) : Option α := xs.foldl (better before) none

/-! ## Triples of taps -/

def tapGet {α : Type} (t : Triple α) : Tap → α
  | .pre => t.pre
  | .main => t.main
  | .post => t.post

def tapSet {α : Type} (t : Triple α) (i : Tap) (x : α) : Triple α :=
  match i with
  | .pre => { t with pre := x }
  | .main => { t with main := x }
  | .post => { t with post := x }

def tapAll {α : Type} (x : α) : Triple α := ⟨x, x, x⟩

/-! ## Attention (R198, R199) -/

/-- The bit of a cause (R196). -/
def Attn.mask : Attn → CauseSet
  | .legChange => 0x001
  | .gradeChange => 0x002
  | .captureDone => 0x004
  | .captureLost => 0x008
  | .collectDone => 0x010
  | .checkDone => 0x020
  | .clash => 0x040
  | .lineFault => 0x080
  | .imageNotice => 0x100

/-- Whether an enabled cause is in the cause set. -/
def Port.wants (p : Port) : Bool := p.causes &&& p.enables != 0

/-- The table of R199, applied where the sets or the throttle have changed: an asserted output with no enabled cause
left is released and the throttle of 10 ms starts; a released one with an enabled cause is asserted unless the throttle
runs. -/
def State.refreshAttention (s : State) : State :=
  if s.port.asserted then
    if s.port.wants then s
    else s.modPort fun p => { p with asserted := false, throttle := s.start (msec 10) }
  else if s.port.wants && s.port.throttle.isNone then s.modPort fun p => { p with asserted := true }
  else s

/-- Causes join the cause set (R198). -/
def State.addCauses (m : CauseSet) (s : State) : State :=
  (s.modPort fun p => { p with causes := p.causes ||| m }).refreshAttention

/-- A block sets a cause (10.5). -/
def State.setCause (a : Attn) (s : State) : State := s.addCauses a.mask

/-! ## Bits, bytes and the cyclic check -/

/-- The bits of a number in `k` bits, most significant first. -/
def natBits : Nat → Nat → List Bool
  | 0, _ => []
  | k + 1, n => n.testBit k :: natBits k n

/-- The bits of a byte, most significant first. -/
def byteBits (b : Byte) : List Bool := natBits 8 b.toNat

/-- One bit through the generator x^16 + x^12 + x^5 + 1 (R5, R104). -/
def crcBit (c : BitVec 16) (b : Bool) : BitVec 16 :=
  if c.msb != b then (c <<< 1) ^^^ 0x1021 else c <<< 1

/-- The 16-bit cyclic code: initial value all ones, bits in order, no final inversion (R5, R104). -/
def crcBits (bs : List Bool) : BitVec 16 := bs.foldl crcBit 0xFFFF

/-- A number in `k` bytes, most significant first (R4, R197). -/
def natBytes : Nat → Nat → List Byte
  | 0, _ => []
  | k + 1, n => BitVec.ofNat 8 (n / 256 ^ k) :: natBytes k n

/-- A number in one byte. -/
def byteOf (n : Nat) : Byte := BitVec.ofNat 8 n

/-- A flag in one byte, 0 or 1 (R197). -/
def boolByte (b : Bool) : Byte := if b then 1 else 0

/-! ## Interval numbers -/

/-- The distance from interval `a` to interval `b`, modulo 65536 (R84). -/
def intervalDist (a b : IntervalNo) : Nat := (b - a).toNat

/-- The length of one interval, 16.384 us × 2^k (R83). -/
def State.intervalLen (s : State) : Nat := 16384 * 2 ^ s.image.k

/-- The beacon period P of this station: 2, 4, 8 or 16 ms (R4, R121). -/
def State.beaconPeriod (s : State) : Nat := msec (2 ^ (s.image.beaconCode + 1))

/-- The dormancy delay: 0.25, 0.5, 1 or 2 s (R4). -/
def State.dormancyDelay (s : State) : Nat := msec (250 * 2 ^ s.image.dormCode)

/-- The solo wait: 0.5, 1, 2 or 4 s (R4). -/
def State.soloWait (s : State) : Nat := msec (500 * 2 ^ s.image.soloCode)

end Sys2Proof.Machine
end

