-- ==== Sys2Proof/Machine/Operands.lean ====
section
/-! DEFINITION. The forms commands' operands come in: the code of every named value, the bodies of peer line messages
(R103) read with the faults of R105 and written, the frame of a message (R102, R104), digests, PAM4 symbols (R35), and
request records (R195, R196). -/

namespace Sys2Proof.Machine

/-! ## Codes of named values (R103, R197) -/

def roleCode : Role → Nat
  | .trunk => 0
  | .leg => 1

def planCode : Plan → Nat
  | .p1x1 => 0
  | .p1x2 => 1
  | .p1x4 => 2
  | .p1x8 => 3

def planOfCode : Nat → Plan
  | 0 => .p1x1
  | 1 => .p1x2
  | 2 => .p1x4
  | _ => .p1x8

def legStateCode : LegState → Nat
  | .dormant => 0
  | .rising => 1
  | .ready => 2
  | .up => 3
  | .faulted => 4
  | .check => 5

def legStateOfCode : Nat → Option LegState
  | 0 => some .dormant
  | 1 => some .rising
  | 2 => some .ready
  | 3 => some .up
  | 4 => some .faulted
  | 5 => some .check
  | _ => none

def gradeCode : Grade → Nat
  | .good => 0
  | .warn => 1
  | .fail => 2

def gradeOfCode : Nat → Option Grade
  | 0 => some .good
  | 1 => some .warn
  | 2 => some .fail
  | _ => none

def causeCode : Cause → Nat
  | .none => 0
  | .frontLoss => 1
  | .cableLoss => 2
  | .skew => 3
  | .strain => 4
  | .planMismatch => 5
  | .tuning => 6
  | .gearbox => 7

def causeOfCode : Nat → Option Cause
  | 0 => some .none
  | 1 => some .frontLoss
  | 2 => some .cableLoss
  | 3 => some .skew
  | 4 => some .strain
  | 5 => some .planMismatch
  | 6 => some .tuning
  | 7 => some .gearbox
  | _ => none

def criterionCode : Criterion → Nat
  | .all => 0
  | .marked => 1
  | .onset => 2

def criterionOfCode : Nat → Option Criterion
  | 0 => some .all
  | 1 => some .marked
  | 2 => some .onset
  | _ => none

def kindCode : MsgKind → Nat
  | .beacon => 0
  | .alert => 1
  | .hush => 2
  | .wake => 3
  | .fetch => 4
  | .parcel => 5

/-- The alert cause codes of the table of R103: 1 to 3 and 9 to 15. -/
def alertCodeKnown (c : Nat) : Bool := (1 ≤ c && c ≤ 3) || (9 ≤ c && c ≤ 15)

/-- A leg field that must name a leg, 1 to 8 (R105). -/
def legOfCode (n : Nat) : Option Leg := if h : 1 ≤ n ∧ n ≤ 8 then some ⟨n, by omega⟩ else none

/-- A leg field where 0 stands for all legs (R103). -/
def legOrAllOfCode (n : Nat) : Option Leg := if h : n ≤ 8 then some ⟨n, by omega⟩ else none

/-- A station field, 0 to 8 (R105). -/
def stationOfCode (n : Nat) : Option Station := if h : n ≤ 8 then some ⟨n, by omega⟩ else none

/-! ## Message bodies (R103, R105) -/

/-- The upper four bits of a byte. -/
def hiNibble (b : Byte) : Nat := b.toNat / 16
/-- The lower four bits of a byte. -/
def loNibble (b : Byte) : Nat := b.toNat % 16

structure BeaconBody where
  role       : Role
  plan       : Plan
  frontClass : Nat
  synced     : Bool
  trig       : Byte
  summaries  : List Summary
deriving DecidableEq, Repr

structure AlertBody where
  trig  : Byte
  leg   : Leg
  cause : Nat
  age   : Nat
deriving DecidableEq, Repr

structure ParcelBody where
  requester : Station
  leg       : Leg
  trig      : Byte
  cursor    : Byte
  last      : Bool
  none      : Bool
  truncated : Bool
  notFound  : Bool
  groups    : List (Int × List Digest)
deriving DecidableEq, Repr

/-- The two bytes of a summary. -/
def encodeSummary (x : Summary) : List Byte :=
  [byteOf (x.leg.val * 16 + legStateCode x.sum.state * 2 + x.sum.claim.toNat),
   byteOf (gradeCode x.sum.grade * 64 + x.sum.cableOk.toNat * 32 + x.sum.frontOk.toNat * 16 + causeCode x.sum.cause)]

def decodeSummary (b0 b1 : Byte) : Option Summary := do
  let leg ← legOfCode (hiNibble b0)
  let state ← legStateOfCode (b0.toNat / 2 % 8)
  let grade ← gradeOfCode (b1.toNat / 64)
  let cause ← causeOfCode (loNibble b1)
  return ⟨leg, ⟨state, grade, b1.toNat.testBit 5, b1.toNat.testBit 4, b0.toNat.testBit 0, cause⟩⟩

def decodeSummaries : List Byte → Option (List Summary)
  | [] => some []
  | [_] => none
  | b0 :: b1 :: rest => do
    let x ← decodeSummary b0 b1
    let xs ← decodeSummaries rest
    return x :: xs

/-- Two summaries with the same leg make a BEACON a format error (R105). -/
def legsDistinct : List Summary → Bool
  | [] => true
  | x :: xs => xs.all (fun y => y.leg != x.leg) && legsDistinct xs

def encodeBeacon (b : BeaconBody) : List Byte :=
  byteOf (roleCode b.role * 128 + planCode b.plan * 32 + (b.frontClass - 1) * 16 + b.synced.toNat * 8
      + (b.summaries.length - 1)) ::
    b.trig :: b.summaries.flatMap encodeSummary

def decodeBeacon : List Byte → Option BeaconBody
  | b0 :: tg :: rest =>
    if rest.length ≠ 2 * (b0.toNat % 8 + 1) then none
    else do
      let xs ← decodeSummaries rest
      if legsDistinct xs then
        return { role := if b0.toNat.testBit 7 then .leg else .trunk
                 plan := planOfCode (b0.toNat / 32 % 4)
                 frontClass := if b0.toNat.testBit 4 then 2 else 1
                 synced := b0.toNat.testBit 3
                 trig := tg
                 summaries := xs }
      else none
  | _ => none

def encodeAlert (a : AlertBody) : List Byte := [a.trig, byteOf (a.leg.val * 16 + a.cause), byteOf a.age]

def decodeAlert : List Byte → Option AlertBody
  | [tg, b1, b2] => do
    let leg ← legOrAllOfCode (hiNibble b1)
    if alertCodeKnown (loNibble b1) then return ⟨tg, leg, loNibble b1, loNibble b2⟩ else none
  | _ => none

def encodeSleep (L : Leg) : List Byte := [byteOf (L.val * 16)]

/-- The body of a HUSH or WAKE names a leg. -/
def decodeSleep : List Byte → Option Leg
  | [b0] => legOfCode (hiNibble b0)
  | _ => none

def encodeFetch (f : Fetch) : List Byte :=
  [byteOf (f.target.val * 16 + f.leg.val), f.trig, byteOf (criterionCode f.criterion), f.cursor]

def decodeFetch : List Byte → Option Fetch
  | [b0, tg, b2, cur] => do
    let target ← stationOfCode (hiNibble b0)
    let leg ← legOfCode (loNibble b0)
    let crit ← criterionOfCode (b2.toNat % 4)
    return ⟨target, leg, tg, crit, cur⟩
  | _ => none

/-- The four bytes of a digest (R103); each U is held to 255 (R188). -/
def encodeDigest (d : Digest) : List Byte :=
  [byteOf (d.frontTail * 8 + legStateCode d.state), byteOf (d.cableTail * 8 + gradeCode d.grade),
   byteOf (min d.frontU 255), byteOf (min d.cableU 255)]

def decodeDigest (b0 b1 b2 b3 : Byte) : Option Digest := do
  let state ← legStateOfCode (b0.toNat % 8)
  let grade ← gradeOfCode (b1.toNat % 4)
  if b0.toNat / 8 ≤ 17 ∧ b1.toNat / 8 ≤ 17 then
    return ⟨b0.toNat / 8, b1.toNat / 8, state, grade, b2.toNat, b3.toNat⟩
  else none

/-- The next `n` digests and the bytes after them. -/
def takeDigests : Nat → List Byte → Option (List Digest × List Byte)
  | 0, bs => some ([], bs)
  | n + 1, b0 :: b1 :: b2 :: b3 :: rest => do
    let d ← decodeDigest b0 b1 b2 b3
    let (ds, rest') ← takeDigests n rest
    return (d :: ds, rest')
  | _ + 1, _ => none

/-- The groups of a PARCEL to the end of its body; `fuel` bounds their number. -/
def decodeGroups : Nat → List Byte → Option (List (Int × List Digest))
  | _, [] => some []
  | 0, _ => none
  | _, [_] => none
  | fuel + 1, off :: cnt :: rest =>
    if cnt.toNat = 0 ∨ 4 < cnt.toNat then none
    else do
      let (ds, rest') ← takeDigests cnt.toNat rest
      let gs ← decodeGroups fuel rest'
      return (off.toInt, ds) :: gs

/-- The number of digests a PARCEL carries. -/
def digestCount (gs : List (Int × List Digest)) : Nat := (gs.map fun g => g.2.length).sum

def encodeGroup (g : Int × List Digest) : List Byte :=
  BitVec.ofInt 8 g.1 :: byteOf g.2.length :: g.2.flatMap encodeDigest

def encodeParcel (p : ParcelBody) : List Byte :=
  [byteOf (p.requester.val * 16 + p.leg.val), p.trig, p.cursor,
   byteOf (p.last.toNat + p.none.toNat * 2 + p.truncated.toNat * 4 + p.notFound.toNat * 8)]
    ++ p.groups.flatMap encodeGroup

def decodeParcel : List Byte → Option ParcelBody
  | b0 :: tg :: cur :: fl :: rest => do
    let requester ← stationOfCode (hiNibble b0)
    let leg ← legOfCode (loNibble b0)
    let gs ← decodeGroups rest.length rest
    let none' := fl.toNat.testBit 1
    let nf := fl.toNat.testBit 3
    if rest.length ≤ 20 ∧ ((none' || nf) = true → gs = []) then
      return ⟨requester, leg, tg, cur, fl.toNat.testBit 0, none', fl.toNat.testBit 2, nf, gs⟩
    else none
  | _ => none

/-- A sender field of 0 to 8 with a body free of the format errors of R105. -/
def bodyWellFormed (k : MsgKind) (sender : Nat) (body : List Byte) : Bool :=
  sender ≤ 8 &&
    match k with
    | .beacon => (decodeBeacon body).isSome
    | .alert => (decodeAlert body).isSome
    | .hush => (decodeSleep body).isSome
    | .wake => (decodeSleep body).isSome
    | .fetch => (decodeFetch body).isSome
    | .parcel => (decodeParcel body).isSome

/-! ## The frame on the wire (R102, R104) -/

/-- The header and body bits of a message, most significant bit of each field first (R103). -/
def headBits (priority sender : Nat) (k : MsgKind) (body : List Byte) : List Bool :=
  natBits 2 priority ++ natBits 4 sender ++ natBits 3 (kindCode k) ++ natBits 5 body.length
    ++ body.flatMap byteBits

/-- A frame with its check filled (R104). -/
def mkFrame (priority : Nat) (sender : Station) (k : MsgKind) (body : List Byte) : Frame :=
  ⟨priority, sender, k, body, crcBits (headBits priority sender k body)⟩

/-- All content bits, the check last. -/
def Frame.content (f : Frame) : List Bool :=
  headBits f.priority f.sender f.kind f.body ++ natBits 16 f.check.toNat

/-- One recessive separator after every eighth content bit; `n` counts the bits since the last (R102). -/
def separate : Nat → List Bool → List Bool
  | _, [] => []
  | n, b :: bs => if n = 7 then b :: true :: separate 0 bs else b :: separate (n + 1) bs

/-- The bit times of a message with this body length (R102). -/
def messageBits (len : Nat) : Nat := 36 + 9 * len

/-- Content bits with the separators between the start mark and the end mark, false dominant and true recessive (R101,
R102). -/
def framed (content : List Bool) : List Bool := false :: (separate 0 content ++ [true, true])

/-- The bits of a message from start mark to end mark. -/
def Frame.wire (f : Frame) : List Bool := framed f.content

/-- The bits of a message of another station, whose sender field may be any (R103, R104). -/
def wireOf (priority sender : Nat) (k : MsgKind) (body : List Byte) : List Bool :=
  let head := headBits priority sender k body
  framed (head ++ natBits 16 (crcBits head).toNat)

/-- The dominant run after the first `n` bits of a message are read as sent (R115). -/
def Frame.domRunOf (f : Frame) (n : Nat) : Nat := ((f.wire.take n).reverse.takeWhile fun b => !b).length

/-- The dominant run after bit `n` of a message is the first read as the other level than sent (R110 to R112, R115). -/
def Frame.domRunAtDifference (f : Frame) (n : Nat) : Nat :=
  if f.wire.getD (n - 1) true then f.domRunOf (n - 1) + 1 else 0

/-- The bits of the attempt read by a moment, from its start mark on (R101, R102). -/
def Attempt.bitsRead (a : Attempt) (now : Nat) : Nat := messageBits a.frame.body.length - (a.ends - now) / bitTime

/-- The first six content bits: priority, then sender (R103). -/
def Frame.arbitration (f : Frame) : Nat := f.priority * 16 + f.sender.val

/-! ## PAM4 symbols and the pattern register (R17, R35, R36) -/

/-- The level at the opposite end of the four (R17). -/
def complementLevel : Level → Level
  | .l0 => .l3
  | .l1 => .l2
  | .l2 => .l1
  | .l3 => .l0

/-- The two bits of a level, the earlier first: 00, 01, 11, 10 from the lowest (R35). -/
def levelBits : Level → Bool × Bool
  | .l0 => (false, false)
  | .l1 => (false, true)
  | .l2 => (true, true)
  | .l3 => (true, false)

def levelOfBits : Bool × Bool → Level
  | (false, false) => .l0
  | (false, true) => .l1
  | (true, true) => .l2
  | (true, false) => .l3

/-- The next bit of the sequence with polynomial x^31 + x^28 + 1; bit 0 of the register is its newest stage (R35). -/
def prbsBit (r : BitVec 31) : Bool := r.getLsbD 30 != r.getLsbD 27

/-- A bit enters the register. -/
def shiftIn (r : BitVec 31) (b : Bool) : BitVec 31 := (r <<< 1) ||| (if b then 1 else 0)

/-- The next symbol of the sequence and the register after it. -/
def prbsSymbol (r : BitVec 31) : Level × BitVec 31 :=
  let b0 := prbsBit r
  let r1 := shiftIn r b0
  let b1 := prbsBit r1
  (levelOfBits (b0, b1), shiftIn r1 b1)

/-- The two bits of a received symbol enter the register. -/
def loadSymbol (r : BitVec 31) (x : Level) : BitVec 31 := shiftIn (shiftIn r (levelBits x).1) (levelBits x).2

/-! ## Request records (R195, R196) -/

/-- A request with its argument bytes. -/
inductive Request
  | readStation
  | readLeg (leg : Byte)
  | readLane (lane : Byte)
  | readRoster (index : Byte)
  | readRecord (leg age : Byte)
  | readCapture (slot record : Byte)
  | readCollection (index : Byte)
  | readAttention
  | restartLeg (leg : Byte)
  | checkSegment (leg : Byte)
  | clearCaptures
  | trigger (leg : Byte)
  | collect (target trig leg criterion : Byte)
  | setEnables (set : BitVec 16)
  | forceCause (set : BitVec 16)
  | locate (on : Byte)
deriving DecidableEq, Repr

/-- The request code (R196). -/
def Request.code : Request → Byte
  | .readStation => 0x01
  | .readLeg _ => 0x02
  | .readLane _ => 0x03
  | .readRoster _ => 0x04
  | .readRecord _ _ => 0x05
  | .readCapture _ _ => 0x06
  | .readCollection _ => 0x07
  | .readAttention => 0x08
  | .restartLeg _ => 0x10
  | .checkSegment _ => 0x11
  | .clearCaptures => 0x12
  | .trigger _ => 0x13
  | .collect _ _ _ _ => 0x14
  | .setEnables _ => 0x18
  | .forceCause _ => 0x19
  | .locate _ => 0x1A

/-- A request code of the table of R196, with the length of its arguments. -/
def knownCode (code : Byte) : Option Nat :=
  match code.toNat with
  | 0x01 => some 0
  | 0x02 => some 1
  | 0x03 => some 1
  | 0x04 => some 1
  | 0x05 => some 2
  | 0x06 => some 2
  | 0x07 => some 1
  | 0x08 => some 0
  | 0x10 => some 1
  | 0x11 => some 1
  | 0x12 => some 0
  | 0x13 => some 1
  | 0x14 => some 4
  | 0x18 => some 2
  | 0x19 => some 2
  | 0x1A => some 1
  | _ => none

/-- The request of a known code with arguments of its length. -/
def requestOf (code : Byte) (args : List Byte) : Option Request :=
  match code.toNat, args with
  | 0x01, [] => some .readStation
  | 0x02, [a] => some (.readLeg a)
  | 0x03, [a] => some (.readLane a)
  | 0x04, [a] => some (.readRoster a)
  | 0x05, [a, b] => some (.readRecord a b)
  | 0x06, [a, b] => some (.readCapture a b)
  | 0x07, [a] => some (.readCollection a)
  | 0x08, [] => some .readAttention
  | 0x10, [a] => some (.restartLeg a)
  | 0x11, [a] => some (.checkSegment a)
  | 0x12, [] => some .clearCaptures
  | 0x13, [a] => some (.trigger a)
  | 0x14, [a, b, c, d] => some (.collect a b c d)
  | 0x18, [a, b] => some (.setEnables (a ++ b))
  | 0x19, [a, b] => some (.forceCause (a ++ b))
  | 0x1A, [a] => some (.locate a)
  | _, _ => none

/-- What the port makes of the bytes of a write transaction (R195). -/
inductive WriteForm
  | empty
  | malformed (code : Byte)
  | unknown (code : Byte)
  | request (r : Request)
deriving DecidableEq, Repr

def parseWrite : List Byte → WriteForm
  | [] => .empty
  | [code] => .malformed code
  | code :: len :: args =>
    if args.length ≠ len.toNat then .malformed code
    else match knownCode code with
      | none => .unknown code
      | some _ =>
        match requestOf code args with
        | some r => .request r
        | none => .malformed code

end Sys2Proof.Machine
end

