-- ==== Sys2Proof/Machine/Flags.lean ====
section
/-! DEFINITION. The conditions and figures computed from other state: presence, readiness and its reasons, priming, the
transmitter tables, skew, the arithmetic of strain and grade, effective priority, the indicator. -/

namespace Sys2Proof.Machine

/-! ## Presence and readiness (R29, R50, R76 to R78) -/

/-- front_present of a context (R29). -/
def State.frontPresent (s : State) (L : Leg) : Bool := (s.frontLanes L).any fun k => (s.lane (frontLane k)).present

/-- Own ready: the receiver LOCKED with settled raised (R50). -/
def State.ownReady (s : State) (k : FLane) : Bool :=
  (s.lane (frontLane k)).rx == .locked && (s.tuner k).settled

/-- A held PLAN_MISMATCH (R151). -/
def Ctx.mismatchHeld (c : Ctx) : Bool := c.state == .faulted && c.held && c.cause == .planMismatch

/-- A claimant that has ended its check and still sends PATTERN (R161). -/
def Ctx.inRelease (c : Ctx) : Bool := c.state == .check && c.release.isSome

/-- The first failing condition of R76 by its reason (R78); none while cable_ok holds. -/
def State.cableFail (s : State) (L : Leg) : Option Cause :=
  let ks := s.cableLanes L
  if ks.any fun k => (s.lane (cableLane k)).rx != .locked then some .cableLoss
  else if ks.any fun k => (s.lane (cableLane k)).lock != .inLock then some .cableLoss
  else if (s.ctx L).cable.align != .aligned then some .skew
  else if s.gear && ks.any fun k => (s.split k).prime != .primed then some .gearbox
  else none

/-- The first failing condition of R77 by its reason (R78); none while front_ok holds. -/
def State.frontFail (s : State) (L : Leg) : Option Cause :=
  let ks := s.frontLanes L
  if ks.any fun k => (s.lane (frontLane k)).rx != .locked then some .frontLoss
  else if ks.any fun k => (s.tuner k).st != .done then some .tuning
  else if ks.any fun k => (s.lane (frontLane k)).lock != .inLock then some .frontLoss
  else if s.gear && (s.cableLanes L).any fun k => (s.merge k).prime != .primed then some .gearbox
  else if (s.ctx L).front.align != .aligned then some .skew
  else none

/-! ## Source paths and transmitter tables (R31, R32, R35) -/

/-- Whether the source path of a lane's transmitter is primed (R31, R35). -/
def State.sourcePrimed (s : State) (l : Lane) : Bool :=
  let k := laneNo l
  if isFront l then
    if s.gear then (s.split ⟨k.val / 2, by omega⟩).prime == .primed
    else (s.lane (cableLane k)).rx == .locked
  else
    if s.gear then (s.merge k).prime == .primed
    else (s.lane (frontLane k)).rx == .locked

/-- The table of R31: the first row whose condition holds. -/
def frontTable (c : Ctx) (st : TuneState) (primed : Bool) : TxMode :=
  if c.state == .dormant then .squelch
  else if c.state == .check then .hold
  else if st == .waiting || st == .tuning || st == .closing then .tune
  else if c.state == .up && primed then .data
  else .hold

/-- The table of R35: the first row whose condition holds. -/
def cableTable (c : Ctx) : TxMode :=
  if c.state == .dormant then .squelch
  else if c.state == .check then .pattern
  else if (c.state == .ready || c.state == .up) && c.frontOk then .data
  else .hold

/-- The mode a lane's table calls for (R31, R35); an unused lane's is SQUELCH (R16). -/
def State.tableMode (s : State) (l : Lane) : TxMode :=
  match s.owner l with
  | none => .squelch
  | some L =>
    match s.ctx? L with
    | none => .squelch
    | some c => if isFront l then frontTable c (s.tuner (laneNo l)).st (s.sourcePrimed l) else cableTable c

/-- How a change to mode `want` takes effect (R32): HOLD to DATA, and DATA to HOLD with the source path still primed,
wait for the next marker boundary; every other change is at once.  The newest result replaces a pending one. -/
def retarget (want : TxMode) (primed : Bool) (u : LaneUnit) : LaneUnit :=
  if want = u.mode then { u with pendingMode := none }
  else match u.mode, want with
    | .hold, .data => { u with pendingMode := some .data }
    | .data, .hold => if primed then { u with pendingMode := some .hold }
        else { u with mode := .hold, pendingMode := none }
    | _, _ => { u with mode := want, pendingMode := none }

/-- A cable lane that enters PATTERN starts its generator with k + 1 in its 31 stages (R35), the least significant bit in
the newest stage (the model's choice, log 24). -/
def seedOnEntry (k : CLane) (before after : TxMode) (ch : Checker) : Checker :=
  if after = .pattern ∧ before ≠ .pattern then { ch with gen := BitVec.ofNat 31 (k.val + 1) } else ch

/-- The lane units of a context evaluate their tables again (R30, R156). -/
def State.evalTx (L : Leg) (s : State) : State :=
  let lanes' := map16 (fun l u =>
    if s.owner l = some L then retarget (s.tableMode l) (s.sourcePrimed l) u else u) s.lanes
  { s with
    lanes := lanes'
    checkers := map8 (fun k ch => seedOnEntry k (s.lane (cableLane k)).mode (lanes'.get (cableLane k)).mode ch)
      s.checkers }

/-! ## Skew (R64) -/

/-- The skew of marker positions on a circle of one period: the shortest arc that contains them all.  An arc that
starts at a position and runs to the farthest of the others contains them all, and the shortest one starts so. -/
def skewOf (period : Nat) (ps : List Nat) : Nat :=
  let arc := fun p => (ps.map fun q => (q + period - p) % period).foldl max 0
  match ps with
  | [] => 0
  | p :: _ => (ps.map arc).foldl min (arc p)

/-- The room for skew, in code symbols (4.3, R65, R74). -/
def skewLimit : Nat := 192

/-! ## The arithmetic of one segment (5.4, 5.5) -/

/-- The largest k in 0..15 with H[k] > 0, 0 if there is none (R88). -/
def largestErrored (h : Vector Nat 16) : Nat :=
  ([0, 1, 2, 3, 4, 5, 6, 7, 8, 9, 10, 11, 12, 13, 14, 15] : List (Fin 16)).foldl
    (fun t k => if 0 < h.get k then k.val else t) 0

/-- The tail t (R88). -/
def tailOf (a : Accum) : Nat :=
  if a.loss then 17
  else if 0 < a.u then 16
  else if a.n = 0 then 0
  else largestErrored a.h

/-- The errored-symbol sum S (R89). -/
def erroredSum (a : Accum) : Nat :=
  ([1, 2, 3, 4, 5, 6, 7, 8, 9, 10, 11, 12, 13, 14, 15] : List (Fin 16)).foldl
    (fun t k => t + k.val * a.h.get k) 0 + 16 * a.u

/-- The error density Dn, held to 16384 (R89). -/
def densityOf (a : Accum) : Nat := if a.n = 0 then 0 else min 16384 (erroredSum a * 1024 / a.n)

/-- The increment P[t] + 4 × min(U, 64) (R91). -/
def incrementOf (img : Image) (a : Accum) : Nat := img.penalty.toList.getD (tailOf a) 0 + 4 * min a.u 64

/-- s' = s + inc − Dk, clamped to 0..4095 after the sum (R92). -/
def strainAfter (s inc dk : Nat) : Nat := min 4095 (s + inc - dk)

/-- The table of R93. -/
def gradeAfter (img : Image) (before : Grade) (s' : Nat) : Grade :=
  match before with
  | .good => if img.fail ≤ s' then .fail else if img.warn ≤ s' then .warn else .good
  | .warn => if img.fail ≤ s' then .fail else if s' < img.warn - img.hyst then .good else .warn
  | .fail =>
    if s' < img.warn - img.hyst then .good else if s' < img.fail - img.hyst then .warn else .fail

/-- The worse of two grades, GOOD < WARN < FAIL (R94). -/
def worse (a b : Grade) : Grade := if gradeCode a < gradeCode b then b else a

/-! ## Effective priority (R119) -/

/-- The initial priority of a queue (R116). -/
def initialPriority : MsgClass → Nat
  | .urgent => 0
  | .status => 1
  | .bulk => 3

/-- max(0, initial priority − floor(waits / 4)). -/
def effPriority (cls : MsgClass) (m : Msg) : Nat := initialPriority cls - m.waits / 4

/-! ## Indicator (R200) -/

/-- What the indicator mode of the image asks for. -/
def State.modeLit (s : State) : Bool :=
  match s.image.indicator with
  | .off => false
  | .on => true
  | .up => s.legs.all fun L => (s.ctx L).state == .up
  | .anyUp => s.legs.any fun L => (s.ctx L).state == .up
  | .good => s.legs.all fun L => (s.ctx L).state == .up && (s.ctx L).legGrade == .good
  | .fault => s.legs.any fun L => (s.ctx L).state == .faulted
  | .attention => s.port.asserted

/-- Whether the indicator is lit: dark until the end of the load (R19), the blink while the locate flag is set, the
mode otherwise. -/
def State.indicatorLit (s : State) : Bool :=
  if s.phase ≠ .running then false else if s.port.locate then s.port.blinkLit else s.modeLit

end Sys2Proof.Machine
end

