-- ==== Sys2Proof/Machine/Queues.lean ====
section
/-! DEFINITION. The outgoing queues of the peer line interface: joining, replacing, owing, holding at the bulk entry
(R116 to R118), selection (R120), change notices and the spacing timer (R122). -/

namespace Sys2Proof.Machine

/-- The queue a message joins (R116). -/
def classOf : MsgBody → MsgClass
  | .alert _ _ _ => .urgent
  | .beacon => .status
  | .sleep _ _ => .status
  | .fetch _ => .bulk
  | .parcel _ _ => .bulk

def isBeacon : MsgBody → Bool
  | .beacon => true
  | .alert _ _ _ | .sleep _ _ | .fetch _ | .parcel _ _ => false

/-- A HUSH or WAKE for leg `L`. -/
def isSleep (L : Leg) : MsgBody → Bool
  | .sleep _ M => M == L
  | .alert _ _ _ | .beacon | .fetch _ | .parcel _ _ => false

/-- This station's own FETCH. -/
def isFetch : MsgBody → Bool
  | .fetch _ => true
  | .alert _ _ _ | .beacon | .sleep _ _ | .parcel _ _ => false

def Line.queue (l : Line) : MsgClass → List Msg
  | .urgent => l.urgent
  | .status => l.status
  | .bulk => l.bulk

def Line.modQueue (cls : MsgClass) (f : List Msg → List Msg) (l : Line) : Line :=
  match cls with
  | .urgent => { l with urgent := f l.urgent }
  | .status => { l with status := f l.status }
  | .bulk => { l with bulk := f l.bulk }

/-- A new message joins its queue last: waits 0, failed attempts 0 (R113, R119). -/
def Line.joinMsg (b : MsgBody) (l : Line) : Line :=
  { l.modQueue (classOf b) (· ++ [{ join := l.nextJoin, body := b }]) with nextJoin := l.nextJoin + 1 }

/-- The message of a queue that fits, if there is one. -/
def Line.findMsg (cls : MsgClass) (p : MsgBody → Bool) (l : Line) : Option Msg := (l.queue cls).find? fun m => p m.body

/-- Whether a message has an attempt under way (R109). -/
def Line.inAttempt (l : Line) (m : Msg) : Bool :=
  match l.attempt with
  | none => false
  | some a => a.join == m.join

/-- The new message takes the place, the joining time and the waits of the one it replaces; its failed attempts start
at 0 (R117, R118). -/
def Line.replaceMsg (cls : MsgClass) (p : MsgBody → Bool) (b : MsgBody) (l : Line) : Line :=
  l.modQueue cls (List.map fun m => if p m.body then { m with body := b, fails := 0 } else m)

/-- A BEACON is queued: it joins, replaces the queued one, or is owed while that one is in an attempt (R117). -/
def Line.putBeacon (why : OwedBeacon) (l : Line) : Line :=
  match l.findMsg .status isBeacon with
  | none => l.joinMsg .beacon
  | some m => if l.inAttempt m then { l with owedBeacon := some why } else l.replaceMsg .status isBeacon .beacon

/-- A HUSH or WAKE is queued for a leg (R117). -/
def Line.putSleep (k : SleepKind) (L : Leg) (l : Line) : Line :=
  match l.findMsg .status (isSleep L) with
  | none => l.joinMsg (.sleep k L)
  | some m =>
    if l.inAttempt m then { l with owedSleep := l.owedSleep.set L.val (some k) L.isLt }
    else l.replaceMsg .status (isSleep L) (.sleep k L)

/-- This station's own FETCH is handed to the interface (R118).  While the FETCH it would replace is in an attempt, it
is owed (log 16). -/
def Line.putFetch (f : Fetch) (l : Line) : Line :=
  match l.findMsg .bulk isFetch with
  | some m =>
    if l.inAttempt m then { l with owedFetch := some f } else l.replaceMsg .bulk isFetch (.fetch f)
  | none =>
    if l.heldFetch.isSome then { l with heldFetch := some f }
    else if l.bulk.length < 4 then l.joinMsg (.fetch f)
    else { l with heldFetch := some f }

/-- The FETCH held at the bulk entry joins at the first departure of a bulk message (R118). -/
def Line.admitHeld (l : Line) : Line :=
  match l.heldFetch with
  | none => l
  | some f => if l.bulk.length < 4 then { l.joinMsg (.fetch f) with heldFetch := none } else l

/-- An out-of-plan station never places a message in a queue (R3, R116). -/
def State.queueLine (f : Line → Line) (s : State) : State := if s.outOfPlan then s else s.modLine f

def State.queueBeacon (why : OwedBeacon) (s : State) : State := s.queueLine (Line.putBeacon why)
def State.queueSleep (k : SleepKind) (L : Leg) (s : State) : State := s.queueLine (Line.putSleep k L)
def State.handFetch (f : Fetch) (s : State) : State := s.queueLine (Line.putFetch f)

/-- The time at least between a BEACON and the next one caused by a change (R122). -/
def beaconSpacing : Nat := msec 1

/-- A change notice: the first matching case of R122. -/
def State.changeNotice (s : State) : State :=
  if !s.line.beaconStarted then s
  else match s.line.findMsg .status isBeacon with
    | some m => if s.line.inAttempt m then s.modLine fun l => { l with owedBeacon := some .change } else s
    | none =>
      if s.line.spacingTimer.isSome then s
      else match s.line.spacingMark with
        | none => s.queueBeacon .change
        | some mark =>
          if mark + beaconSpacing ≤ s.now then s.queueBeacon .change
          else s.modLine fun l => { l with spacingTimer := some (mark + beaconSpacing) }

/-! ## Selection (R120) -/

/-- The place of a class where effective priorities are equal. -/
def classRank : MsgClass → Nat
  | .urgent => 0
  | .status => 1
  | .bulk => 2

/-- Whether the first message is offered before the second (R120). -/
def offeredBefore (a b : MsgClass × Msg) : Bool :=
  let pa := effPriority a.1 a.2
  let pb := effPriority b.1 b.2
  pa < pb || (pa == pb && (classRank a.1 < classRank b.1
    || (classRank a.1 == classRank b.1 && a.2.join < b.2.join)))

/-- All queued messages with their classes. -/
def Line.all (l : Line) : List (MsgClass × Msg) :=
  l.urgent.map (fun m => (.urgent, m)) ++ l.status.map (fun m => (.status, m)) ++ l.bulk.map (fun m => (.bulk, m))

/-- The message R120 offers; none where no message is queued. -/
def Line.offered (l : Line) : Option (MsgClass × Msg) := firstBy offeredBefore l.all

/-- Every queued message counts one wait (R119). -/
def Line.countWaits (l : Line) : Line :=
  let f := List.map fun (m : Msg) => { m with waits := satInc 255 m.waits }
  { l with urgent := f l.urgent, status := f l.status, bulk := f l.bulk }

/-- A message leaves its queue (R116). -/
def Line.removeMsg (cls : MsgClass) (join : Nat) (l : Line) : Line :=
  l.modQueue cls (List.filter fun m => m.join != join)

/-- Each queued ALERT counts one interval close, up to 15 (R123). -/
def Line.ageAlerts (l : Line) : Line :=
  { l with urgent := l.urgent.map fun m =>
      match m.body with
      | .alert L c n => { m with body := .alert L c (satInc 15 n) }
      | .beacon | .sleep _ _ | .fetch _ | .parcel _ _ => m }

end Sys2Proof.Machine
end

