-- ==== Sys2Proof/Machine/Captures.lean ====
section
/-! DEFINITION. The capture unit: opening a capture and its window (R170 to R179), the alert windows (R172, R173), the
links of local captures (R180), release (R182), and alert origination (R163). -/

namespace Sys2Proof.Machine

/-- B + A + 1 intervals from T − B to T + A (R178). -/
def windowOf (img : Image) (t : IntervalNo) : List IntervalNo :=
  (List.range (img.capB + img.capA + 1)).map fun i => t - BitVec.ofNat 16 img.capB + BitVec.ofNat 16 i

/-- The three classes of R178. -/
inductive WindowClass | held | missing | toCome
deriving DecidableEq, Repr

/-- The class of interval `x` at open interval `c` with `r` records retained: those of c − r to c − 1 (R168, R178). -/
def classify (c : IntervalNo) (r : Nat) (x : IntervalNo) : WindowClass :=
  let d := intervalDist x c
  if 1 ≤ d ∧ d ≤ 32767 then (if d ≤ r then .held else .missing) else .toCome

/-- The retained record of interval `x`: at distance d before the open interval it stands d places from the ring's end. -/
def ringRecord (ring : List Record) (c x : IntervalNo) : Option Record := ring[ring.length - intervalDist x c]?

/-- Header and records of a capture as opened (R176 to R178), but for its place and link. -/
def newCapture (s : State) (L : Leg) (trig : Option Byte) (origin : Station) (cause : Nat) (t : IntervalNo)
    (isLocal : Bool) : Capture :=
  let ring := (s.ctx L).ring
  let cls := classify s.interval ring.length
  let w := windowOf s.image t
  let heldOnes := w.filter fun x => cls x == .held
  let coming := w.filter fun x => cls x == .toCome
  { trig := trig, origin := origin, leg := L, cause := cause, t := t
    first := (heldOnes ++ coming).head?
    records := heldOnes.filterMap (ringRecord ring s.interval)
    truncated := w.any fun x => cls x == .missing
    isLocal := isLocal, unshared := false
    state := if coming.isEmpty then .held else .filling
    order := s.nextOrder, link := none }

def isRetrieved (c : Option Capture) : Bool :=
  match c with
  | some x => x.state == .retrieved
  | none => false

/-- A capture's place in the opening order, for comparing two in use. -/
def orderOf (c : Option Capture) : Nat :=
  match c with
  | some x => x.order
  | none => 0

/-- The slots the unit allocates from (R12, R174). -/
def State.slotIds (s : State) : List (Fin 8) := all8.filter fun i => i.val < s.slotCount

/-- The slot an opening takes (R174): the lowest FREE one, else the RETRIEVED one earliest in the opening order. -/
def State.allocate (s : State) : Option (Fin 8) :=
  match s.slotIds.find? fun i => (s.slot i).isNone with
  | some i => some i
  | none =>
    firstBy (fun i j => orderOf (s.slot i) < orderOf (s.slot j)) (s.slotIds.filter fun i => isRetrieved (s.slot i))

/-- Open a capture for leg `L`, or lose it (R174, R175).  A capture complete at its opening sets CAPTURE_DONE (R179). -/
def openCapture (trig : Option Byte) (origin : Station) (cause : Nat) (t : IntervalNo) (isLocal unshared : Bool)
    (link : Option Nat) (L : Leg) (s : State) : State :=
  match s.allocate with
  | none => ({ s with overflow := true, lost := satInc cap16 s.lost } : State).setCause .captureLost
  | some i =>
    let c := { newCapture s L trig origin cause t isLocal with unshared := unshared, link := link }
    let s := { s.setSlot i (some c) with nextOrder := s.nextOrder + 1 }
    if c.state = .held then s.setCause .captureDone else s

/-- Change every capture in use. -/
def State.modCaptures (f : Capture → Capture) (s : State) : State :=
  { s with slots := map8 (fun _ c => c.map f) s.slots }

/-- The ALERT with this joining order completed: its number becomes that of the captures linked to it (R180). -/
def State.numberLinked (join : Nat) (n : Byte) (s : State) : State :=
  s.modCaptures fun c => if c.link = some join then { c with trig := some n, link := none } else c

/-- The ALERT was discarded: the captures linked to it are UNSHARED (R180). -/
def State.unshareLinked (join : Nat) (s : State) : State :=
  s.modCaptures fun c => if c.link = some join then { c with unshared := true, link := none } else c

/-! ## Alert windows (R172, R173) -/

/-- The 12-bit key of a received ALERT. -/
def alertKey (sender : Station) (leg : Leg) (cause : Nat) : BitVec 12 :=
  BitVec.ofNat 12 (sender.val * 256 + leg.val * 16 + cause)

/-- An enabled window hits when key and base agree under its mask. -/
def AlertWindow.hits (w : AlertWindow) (key : BitVec 12) : Bool := w.enable && (key &&& w.mask) == (w.base &&& w.mask)

/-- The action of the first enabled window that hits, else CAPTURE. -/
def windowAction (img : Image) (key : BitVec 12) : WindowAction :=
  match img.windows.toList.find? fun w => w.hits key with
  | some w => w.action
  | none => .capture

/-- The contexts an action names (R173). -/
def actionLegs (s : State) (a : WindowAction) (leg : Leg) : List Leg :=
  match a with
  | .ignore => []
  | .captureAll => s.legs
  | .capture => if leg = 0 then s.legs else s.legs.filter fun L => L == leg

/-! ## Finding and releasing (R182) -/

/-- The captures that match a trigger number and leg, by slot. -/
def State.matching (s : State) (trig : Byte) (leg : Leg) : List (Fin 8 × Capture) :=
  all8.filterMap fun i => match s.slot i with
    | some c => if c.trig = some trig ∧ c.leg = leg then some (i, c) else none
    | none => none

/-- The capture a FETCH finds: the latest opened that matches, unless that one is FILLING (R182). -/
def State.findCapture (s : State) (trig : Byte) (leg : Leg) : Option (Fin 8 × Capture) :=
  match firstBy (fun x y => y.2.order < x.2.order) (s.matching trig leg) with
  | some (i, c) => if c.state = .filling then none else some (i, c)
  | none => none

/-- The delivery of the capture in this slot with this place in the opening order has ended: HELD becomes RETRIEVED;
a capture discarded or replaced meanwhile is not touched (R182). -/
def State.releaseCapture (i : Fin 8) (order : Nat) (s : State) : State :=
  match s.slot i with
  | some c => if c.order = order ∧ c.state = .held then s.setSlot i (some { c with state := .retrieved }) else s
  | none => s

/-! ## Origination (R163, R170) -/

/-- The origins of an alert, by their bit in the alert origin mask (R4). -/
inductive AlertOrigin | legDown | strain | checkFail | manual
deriving DecidableEq, Repr

def originBit : AlertOrigin → Nat
  | .legDown => 0
  | .strain => 1
  | .checkFail => 2
  | .manual => 3

/-- Whether a cause is in the alert origin mask. -/
def State.originates (s : State) (o : AlertOrigin) : Bool := s.image.originMask.getLsbD (originBit o)

/-- The alert cause code of LEG_DOWN with a fault cause: 8 plus its code (R103, R163). -/
def legDownCode (c : Cause) : Nat := 8 + causeCode c

/-- An origination with an unmasked cause (R163): local captures for each context named, in ascending leg order, and an
ALERT that is queued, dropped at a full urgent queue, or at an out-of-plan station never queued (R3, R116, R170).  The
captures are linked to a queued ALERT and UNSHARED otherwise (R180). -/
def originate (o : AlertOrigin) (code : Nat) (legField : Leg) (legs : List Leg) (t : IntervalNo) (s : State) : State :=
  if !s.originates o then s
  else if s.outOfPlan then
    forLegs (openCapture none s.station code t true true none) legs s
  else if s.line.urgent.length < 2 then
    (forLegs (openCapture none s.station code t true false (some s.line.nextJoin)) legs s).modLine
      (Line.joinMsg (.alert legField code 0))
  else
    (forLegs (openCapture none s.station code t true true none) legs s).modLine
      fun l => { l with alertDrops := satInc cap16 l.alertDrops }

end Sys2Proof.Machine
end

