-- ==== Sys2Proof/Machine/Collection.lean ====
section
/-! DEFINITION. Selection and digests (R187, R188), the FETCH service (R189) and the collection unit (R190 to R194). -/

namespace Sys2Proof.Machine

/-! ## Selection (R187) -/

/-- A marked record. -/
def Record.marked (tail : Nat) (r : Record) : Bool :=
  r.grade != .good || tail ≤ r.front.t || tail ≤ r.cable.t || r.front.loss || r.cable.loss

/-- The marked records whose predecessor is not; `prev`: the predecessor is marked. -/
def onsets (tail : Nat) : Bool → List Record → List Record
  | _, [] => []
  | prev, r :: rs => (if r.marked tail && !prev then [r] else []) ++ onsets tail (r.marked tail) rs

/-- The selection of a capture's records by a criterion. -/
def selection (tail : Nat) (c : Criterion) (rs : List Record) : List Record :=
  match c with
  | .all => rs
  | .marked => rs.filter (Record.marked tail)
  | .onset => onsets tail false rs

/-! ## Packing (R188) -/

/-- The digest of a record. -/
def digestOf (r : Record) : Digest where
  frontTail := r.front.t
  cableTail := r.cable.t
  state := r.state
  grade := r.grade
  frontU := min r.front.u 255
  cableU := min r.cable.u 255

/-- A selected record's offset from T, read as a signed number. -/
def offsetOf (t x : IntervalNo) : Int := (x - t).toInt

/-- A PARCEL in the making: closed groups (in order), the open group with the interval its last record has, and the
number of digests. -/
structure Packing where
  groups : List (Int × List Digest)
  last   : Option IntervalNo
  count  : Nat
deriving DecidableEq, Repr

/-- A record joins the open group if it directly follows that group's last record. -/
def joins (last : Option IntervalNo) (x : IntervalNo) : Bool :=
  match last with
  | some y => x == y + 1
  | none => false

/-- A digest placed at the end of the last group. -/
def appendToLast (d : Digest) : List (Int × List Digest) → List (Int × List Digest)
  | [] => []
  | [g] => [(g.1, g.2 ++ [d])]
  | g :: gs => g :: appendToLast d gs

/-- The packing with one record more. -/
def Packing.add (t : IntervalNo) (r : Record) (p : Packing) : Packing where
  groups := if joins p.last r.interval then appendToLast (digestOf r) p.groups
    else p.groups ++ [(offsetOf t r.interval, [digestOf r])]
  last := some r.interval
  count := p.count + 1

/-- The bytes of a PARCEL's body: 4 of header, 2 a group, 4 a digest. -/
def parcelBytes (groups digests : Nat) : Nat := 4 + 2 * groups + 4 * digests

/-- At most 4 digests in at most 24 bytes. -/
def Packing.fits (p : Packing) : Bool := p.count ≤ 4 && parcelBytes p.groups.length p.count ≤ 24

/-- Packing stops at the first digest that does not fit, or when the selection runs out. -/
def packFrom (t : IntervalNo) : List Record → Packing → Packing
  | [], p => p
  | r :: rs, p => if (p.add t r).fits then packFrom t rs (p.add t r) else p

/-! ## The FETCH service (R189) -/

/-- The PARCEL built for a capture, or for none found, and the capture its completion releases: that of a PARCEL that
carries LAST (R182). -/
def buildParcel (s : State) (requester : Station) (f : Fetch) : ParcelBody × Option (Fin 8 × Nat) :=
  match s.findCapture f.trig f.leg with
  | none => (⟨requester, f.leg, f.trig, f.cursor, false, false, false, true, []⟩, none)
  | some (i, c) =>
    let sel := selection s.image.markTail f.criterion c.records
    if sel.isEmpty then
      (⟨requester, f.leg, f.trig, f.cursor, true, true, c.truncated, false, []⟩, some (i, c.order))
    else
      let rest := sel.drop f.cursor.toNat
      let p := packFrom c.t rest ⟨[], none, 0⟩
      let last := rest.length ≤ p.count
      (⟨requester, f.leg, f.trig, f.cursor, last, false, c.truncated, false, p.groups⟩,
        if last then some (i, c.order) else none)

/-- A FETCH addressed to this in-plan station: admitted while the bulk queue has a place, else dropped (R118, R189). -/
def serveFetch (sender : Station) (f : Fetch) (s : State) : State :=
  if s.line.bulk.length < 4 then
    let p := buildParcel s sender f
    s.queueLine (Line.joinMsg (.parcel (encodeParcel p.1) p.2))
  else s.modLine fun l => { l with fetchDrops := satInc cap16 l.fetchDrops }

/-! ## The collection unit -/

/-- The length of the answer timer (R190). -/
def answerWait : Nat := msec 20

/-- The unit leaves RUNNING, which stops the answer timer and sets COLLECT_DONE (R192, R194). -/
def collectEnd (st : CollState) (s : State) : State :=
  (s.modColl fun c => { c with state := st, answer := none }).setCause .collectDone

/-- The latest FETCH the unit handed out (R193). -/
def Collection.fetch (c : Collection) : Fetch := ⟨c.target, c.leg, c.trig, c.criterion, c.cursor⟩

/-- The unit hands its FETCH to the interface and starts the answer timer (R191, R192). -/
def handOwnFetch (s : State) : State :=
  (s.handFetch s.coll.fetch).modColl fun c => { c with answer := s.start answerWait }

/-- A timeout of a RUNNING collection (R192). -/
def collectTimeout (s : State) : State :=
  if s.coll.timeouts < 2 then handOwnFetch (s.modColl fun c => { c with timeouts := c.timeouts + 1 })
  else collectEnd .failed s

/-- The interface reports a FETCH sent, which restarts the answer timer if it is the one last handed out (R192).  An older copy
with the same fields, still in an attempt when its copy was handed, counts as that one: the model's choice (log 16). -/
def fetchSent (f : Fetch) (s : State) : State :=
  if s.coll.state = .running ∧ s.coll.fetch = f then s.modColl fun c => { c with answer := s.start answerWait } else s

/-- The interface reports a FETCH discarded, a timeout if it is the one last handed out (R113, R192), an older copy with the
same fields counting as that one: the model's choice (log 16). -/
def fetchDiscarded (f : Fetch) (s : State) : State :=
  if s.coll.state = .running ∧ s.coll.fetch = f then collectTimeout s else s

/-- The digests of a PARCEL with their offsets, in the order carried: the group's start plus the place in it (R193). -/
def parcelEntries (gs : List (Int × List Digest)) : List (Int × Digest) :=
  gs.flatMap fun g => g.2.mapIdx fun i d => (g.1 + (i : Int), d)

/-- Appending to the buffer of 32; what finds it full is not stored and sets TRUNCATED (R193). -/
def Collection.append (gs : List (Int × List Digest)) (c : Collection) : Collection :=
  let xs := c.buffer ++ parcelEntries gs
  { c with buffer := xs.take 32, truncated := c.truncated || 32 < xs.length }

/-- What an accepted PARCEL does to the unit, short of what follows outside it (R193): the unit after it, and whether
it goes on with a next FETCH, is done, or has timed out. -/
inductive ParcelStep | done | next | timeout
deriving DecidableEq, Repr

/-- The table of R193, by its first matching row.  Where the cursor would pass 255 the digests are appended, and the cursor
and the timeouts stay (the model's choice, log 35). -/
def Collection.accept (p : ParcelBody) (c : Collection) : Collection × ParcelStep :=
  let c := { c with truncated := c.truncated || p.truncated }
  let n := digestCount p.groups
  if p.notFound then ({ c with endFlag := some .notFound }, .done)
  else if p.none then ({ c with endFlag := some .none }, .done)
  else if p.last then ({ c.append p.groups with endFlag := some .last }, .done)
  else if 0 < n then
    let c := c.append p.groups
    if c.cursor.toNat + n ≤ 255 then
      ({ c with cursor := c.cursor + BitVec.ofNat 8 n, timeouts := 0 }, .next)
    else ({ c with endFlag := some .last, truncated := true }, .done)
  else (c, .timeout)

/-- Whether a PARCEL answers the latest FETCH of a RUNNING unit (R193). -/
def Collection.expects (sender : Station) (p : ParcelBody) (c : Collection) : Bool :=
  c.state == .running && sender == c.target && p.trig == c.trig && p.leg == c.leg && p.cursor == c.cursor

/-- A PARCEL handed to the unit (R193). -/
def takeParcel (sender : Station) (p : ParcelBody) (s : State) : State :=
  if s.coll.expects sender p then
    let r := s.coll.accept p
    let s := s.modColl fun _ => r.1
    match r.2 with
    | .done => collectEnd .done s
    | .next => handOwnFetch s
    | .timeout => collectTimeout s
  else s.modColl fun c => { c with late := satInc cap16 c.late }

/-- The unit serves itself in place of the line (R194): each body is applied as it is built, and the body carrying LAST
releases the capture.  A body without LAST carries at least one digest and a cursor that would pass 255 ends the
collection, so 257 bodies are never exceeded. -/
def serveSelf : Nat → State → State
  | 0, s => s
  | fuel + 1, s =>
    let b := buildParcel s s.station s.coll.fetch
    let r := s.coll.accept b.1
    let s := s.modColl fun _ => r.1
    let s := match b.2 with
      | some (i, order) => s.releaseCapture i order
      | none => s
    match r.2 with
    | .done => collectEnd .done s
    | .next => serveSelf fuel s
    | .timeout => s

/-- A bound on the bodies of a self-served collection. -/
def selfBodies : Nat := 257

/-- COLLECT_ANSWER_TIMEOUT (R192): no answer within 20 ms of the FETCH. -/
def execCollectAnswerTimeout (s : State) : Host.Outcome State Fault Refusal :=
  if s.coll.state = .running ∧ s.coll.answer ≠ none then .next (collectTimeout (s.reach s.coll.answer))
  else .next s

end Sys2Proof.Machine
end

