-- ==== Sys2Proof/Machine/TuningEngine.lean ====
section
/-! DEFINITION. The tuning engine of one front lane: answering the partner (R43 to R46), the outstanding request (R47 to
R49), ready and closing (R50, R51), entries to WAITING, restarts (R54 to R56), and its values on a tuning frame (R40). -/

namespace Sys2Proof.Machine

/-- The top of a tap's range (R42). -/
def tapTop : Tap → Nat
  | .pre => 12
  | .main => 44
  | .post => 16

/-- The bottom of a tap's range (R42). -/
def tapBottom : Tap → Nat
  | .pre => 0
  | .main => 20
  | .post => 0

/-- The sum limit of R8 and R42. -/
def tapSumLimit : Nat := 56

def tapSum (t : Triple Nat) : Nat := t.pre + t.main + t.post

/-- The setting PRESET (R42). -/
def presetTaps : Triple Nat := ⟨0, 44, 0⟩

/-- The setting INITIAL of a front lane (R42). -/
def State.initialTaps (s : State) (k : FLane) : Triple Nat := s.image.frontTaps.get k

/-- One row of the table of R44: the taps after a new request, and the status sent. -/
def stepTap (t : Triple Nat) (i : Tap) (d : TapDir) : Triple Nat × TapStatus :=
  match d with
  | .inc =>
    if tapTop i ≤ tapGet t i ∨ tapSumLimit < tapSum t + 1 then (t, .atMax)
    else (tapSet t i (tapGet t i + 1), .updated)
  | .dec => if tapGet t i ≤ tapBottom i then (t, .atMin) else (tapSet t i (tapGet t i - 1), .updated)

/-- The engine acts on one new tap request (R44). -/
def Tuner.answer (i : Tap) (d : TapDir) (t : Tuner) : Tuner :=
  let r := stepTap t.taps i d
  { t with taps := r.1, statuses := tapSet t.statuses i r.2 }

/-- A field that changes to `want` from its last-seen value is a new request (R43). -/
def isNew (seen got want : TapReq) : Bool := got == want && seen != want

/-- The tap requests of a frame whose preset request is NONE: ended requests clear their status (R46); new DEC requests
are acted on first, then new INC requests, each in the order pre, main, post (R44). -/
def Tuner.readTapReqs (f : Triple TapReq) (t : Tuner) : Tuner :=
  let seen := t.seenReqs
  let endOne := fun (t : Tuner) (i : Tap) =>
    if isNew (tapGet seen i) (tapGet f i) .hold then { t with statuses := tapSet t.statuses i .notUpdated } else t
  let decOne := fun (t : Tuner) (i : Tap) => if isNew (tapGet seen i) (tapGet f i) .dec then t.answer i .dec else t
  let incOne := fun (t : Tuner) (i : Tap) => if isNew (tapGet seen i) (tapGet f i) .inc then t.answer i .inc else t
  let taps := [Tap.pre, Tap.main, Tap.post]
  { taps.foldl incOne (taps.foldl decOne (taps.foldl endOne t)) with seenReqs := f }

/-- The partner's requests in a frame received in TUNING (R43 to R46). -/
def Tuner.readRequests (initial : Triple Nat) (f : TuningFrame) (t : Tuner) : Tuner :=
  if f.preset = .none then
    let t := if t.seenPreset = .none then t
      else { t with statuses := tapAll .notUpdated, seenPreset := .none }
    t.readTapReqs f.reqs
  else if f.preset = t.seenPreset then t
  else { t with
    taps := if f.preset = .preset then presetTaps else initial
    statuses := tapAll .updated, seenReqs := tapAll .hold, seenPreset := f.preset }

/-- The closing answer of a direction (R47). -/
def closingAnswer : TapDir → TapStatus
  | .inc => .atMax
  | .dec => .atMin

/-- An answer of AT_MAX closes the tap for INC, one of AT_MIN for DEC (R49). -/
def Tuner.closeBy (i : Tap) (a : TapStatus) (t : Tuner) : Tuner :=
  match a with
  | .atMax => { t with closedInc := tapSet t.closedInc i true }
  | .atMin => { t with closedDec := tapSet t.closedDec i true }
  | .updated | .notUpdated => t

/-- The length of the answer timer and of the release timer (R48). -/
def answerTime : Nat := msec 4

/-- The engine reports the end of a wish to the receiver (R58). -/
def Tuner.tell (r : WishReport) (t : Tuner) : Tuner := { t with reports := t.reports ++ [r] }

/-- The outstanding request ends as answered, with the answer read at entry to RELEASING (R48). -/
def Tuner.endAnswered (t : Tuner) : Tuner :=
  match t.req with
  | none => t
  | some r => { t with req := none, answerTimer := none, releaseTimer := none }.tell (.answered r.answer)

/-- The outstanding request is dropped and the wish reported abandoned; no count changes (R49). -/
def Tuner.dropRequest (t : Tuner) : Tuner :=
  match t.req with
  | none => { t with answerTimer := none, releaseTimer := none }
  | some _ => { t with req := none, answerTimer := none, releaseTimer := none }.tell .abandoned

/-- A frame's partner statuses move the outstanding request through its phases (R48). -/
def Tuner.readStatuses (now : Nat) (f : Triple TapStatus) (t : Tuner) : Tuner :=
  let t := { t with partnerStatus := f }
  match t.req with
  | none => t
  | some r =>
    let st := tapGet f r.tap
    match r.phase with
    | .pending => if st = .notUpdated then { t with req := some { r with phase := .asking } } else t
    | .asking =>
      if st = .notUpdated then t
      else ({ t with
        req := some { r with phase := .releasing, answer := st }
        answerTimer := none
        releaseTimer := some (now + answerTime) }).closeBy r.tap st
    | .releasing => if st = .notUpdated then t.endAnswered else t

/-- The partner-ready run and flag on a frame received in TUNING (R50). -/
def Tuner.readReady (f : TuningFrame) (t : Tuner) : Tuner :=
  if f.ready || f.closing then
    let run := if t.run < 3 then t.run + 1 else t.run
    { t with run := run, partnerReady := t.partnerReady || run == 3 }
  else { t with run := 0, partnerReady := false }

/-- The engine enters CLOSING once own ready, partner_ready and no outstanding request hold together (R51). -/
def Tuner.tryClose (ownReady : Bool) (t : Tuner) : Tuner :=
  if t.st = .tuning ∧ ownReady ∧ t.partnerReady ∧ t.req = none then { t with st := .closing, closingSent := 0 } else t

/-- A presented wish is taken in TUNING with no request outstanding, answered at once where the tap is closed in its
direction, and abandoned at once in CLOSING, DONE and FAILED (R47). -/
def Tuner.takeWish (now : Nat) (t : Tuner) : Tuner :=
  match t.wish with
  | none => t
  | some (i, d) =>
    match t.st with
    | .waiting => t
    | .tuning =>
      if t.req.isSome then t
      else
        let closed := match d with
          | .inc => tapGet t.closedInc i
          | .dec => tapGet t.closedDec i
        if closed then { t with wish := none }.tell (.answered (closingAnswer d))
        else { t with
          wish := none
          req := some ⟨i, d, if tapGet t.partnerStatus i = .notUpdated then .asking else .pending, .notUpdated⟩
          answerTimer := some (now + answerTime) }
    | .closing | .done | .failed => { t with wish := none }.tell .abandoned

/-- What follows when a request has ended or a condition of closing has come to hold: CLOSING first, then a waiting
wish (R47, R51). -/
def Tuner.proceed (now : Nat) (ownReady : Bool) (t : Tuner) : Tuner := (t.tryClose ownReady).takeWish now

/-- A received frame in the engine's state at its arrival (R40). -/
def Tuner.readFrame (now : Nat) (ownReady : Bool) (initial : Triple Nat) (f : TuningFrame) (t : Tuner) : Tuner :=
  match t.st with
  | .tuning =>
    (((t.readRequests initial f).readStatuses now f.statuses).readReady f).proceed now ownReady
  | .closing => { t with seenReqs := f.reqs, seenPreset := f.preset }
  | .waiting | .done | .failed => t

/-- A frame whose check fails (R40): counted, and the partner-ready run is set to 0, but for CLOSING, where R50 leaves
the run as it is (log 23). -/
def Tuner.badFrame (t : Tuner) : Tuner :=
  { t with frameErrors := satInc cap16 t.frameErrors, run := if t.st = .closing then t.run else 0 }

/-- The values at an entry to WAITING that keeps the own taps (R54, R56). -/
def Tuner.toWaiting (t : Tuner) : Tuner :=
  { t.dropRequest with
    st := .waiting, tuneTimer := none, failWait := none
    run := 0, partnerReady := false
    seenReqs := tapAll .hold, seenPreset := .none
    statuses := tapAll .notUpdated, partnerStatus := tapAll .notUpdated
    closedInc := tapAll false, closedDec := tapAll false
    unconfirmed := false, closingSent := 0 }

/-- A restart (R55): WAITING with INITIAL taps, an outstanding request and a standing wish each abandoned, the three counts
kept. -/
def Tuner.restart (initial : Triple Nat) (t : Tuner) : Tuner :=
  let w := { t.toWaiting with taps := initial, wish := none }
  if t.wish.isSome then w.tell .abandoned else w

/-- The receiver has left LOCKED: its wish and settled are withdrawn (R27); TUNING and CLOSING return to WAITING (R54). -/
def Tuner.lostLock (t : Tuner) : Tuner :=
  let t := { t with wish := none, settled := false }
  match t.st with
  | .tuning | .closing => { t with req := none }.toWaiting
  | .waiting | .done | .failed => t

/-- The 400 ms of R52. -/
def tuningTime : Nat := msec 400
/-- The 100 ms of R53. -/
def failureTime : Nat := msec 100

/-- An engine in WAITING whose receiver is LOCKED goes to TUNING, unless its context is DORMANT (R41, R56). -/
def State.tryTuning (k : FLane) (s : State) : State :=
  if (s.tuner k).st = .waiting ∧ (s.lane (frontLane k)).rx = .locked then
    match s.owner (frontLane k) with
    | none => s
    | some L =>
      if (s.ctx L).state = .dormant then s
      else s.modTuner k fun t => { t with st := .tuning, tuneTimer := s.start tuningTime }
  else s

/-- A restart of one engine, going on to TUNING at once where its receiver is LOCKED (R55). -/
def State.restartTuner (k : FLane) (s : State) : State :=
  (s.modTuner k (Tuner.restart (s.initialTaps k))).tryTuning k

/-- The expiry of the 400 ms timer (R52, R53). -/
def Tuner.timeout (now : Nat) (ownReady : Bool) (t : Tuner) : Tuner :=
  let t := { t.dropRequest with tuneTimer := none }
  match t.st with
  | .tuning =>
    if ownReady then ({ t with st := .done, unconfirmed := true }).takeWish now
    else ({ t with st := .failed, failures := satInc 255 t.failures, failWait := some (now + failureTime) }).takeWish now
  | .closing => { t with st := .done, unconfirmed := false }
  | .waiting | .done | .failed => t

/-- A closing frame has been sent; the eighth takes the engine to DONE (R51). -/
def Tuner.sentClosing (t : Tuner) : Tuner :=
  if t.st = .closing then
    if t.closingSent + 1 < 8 then { t with closingSent := t.closingSent + 1 }
    else { t with closingSent := 8, st := .done, unconfirmed := false, tuneTimer := none }
  else t

/-- The fields of the frame the engine sends (R40, R48). -/
def Tuner.frameSent (ownReady : Bool) (t : Tuner) : TuningFrame :=
  match t.st with
  | .tuning =>
    let reqs := match t.req with
      | some r => if r.phase = .asking then
          tapSet (tapAll .hold) r.tap (match r.dir with | .inc => .inc | .dec => .dec)
        else tapAll .hold
      | none => tapAll .hold
    ⟨reqs, .none, t.statuses, ownReady, false⟩
  | .closing => ⟨tapAll .hold, .none, t.statuses, true, true⟩
  | .waiting | .done | .failed => ⟨tapAll .hold, .none, tapAll .notUpdated, false, false⟩

end Sys2Proof.Machine
end

