-- ==== Sys2Proof/Machine/Coordination.lean ====
section
/-! DEFINITION. The leg controller (chapter 8): entries into each leg state, what it does with readiness, far results,
presence, strain events and sleep messages, and what a change hands on (R156). -/

namespace Sys2Proof.Machine

/-! ## Changes and what they hand on (R156) -/

/-- Fields of a context that leaving a state clears: held on leaving FAULTED (R150), unattended and the up timer on
leaving UP (R145), the solo timer on leaving READY (R144, R145, R149, R154, R160). -/
def Ctx.enter (st : LegState) (c : Ctx) : Ctx :=
  { c with
    state := st
    held := if c.state = .faulted then false else c.held
    unattended := if c.state = .up then false else c.unattended
    up := if c.state = .up then none else c.up
    solo := if c.state = .ready then none else c.solo }

/-- A change of leg state sets LEG_CHANGE, sends a change notice and has the lane units evaluate their tables. -/
def setLegState (L : Leg) (st : LegState) (s : State) : State :=
  if (s.ctx L).state = st then s
  else ((s.modCtx L (Ctx.enter st)).setCause .legChange).changeNotice.evalTx L

/-- A change of cause sends a change notice. -/
def setLegCause (L : Leg) (c : Cause) (s : State) : State :=
  if (s.ctx L).cause = c then s else (s.modCtx L fun x => { x with cause := c }).changeNotice

/-- A change of the claim flag sends a change notice. -/
def setClaim (L : Leg) (b : Bool) (s : State) : State :=
  if (s.ctx L).claim = b then s else (s.modCtx L fun x => { x with claim := b }).changeNotice

/-! ## Readiness as the monitor keeps it (R76 to R78) -/

/-- The last reason handed, after a computation of readiness: a fall brings its reason (R78). -/
def reasonAfter (was : Bool) (fail last : Option Cause) : Option Cause :=
  match was, fail with
  | true, some r => some r
  | _, _ => last

/-- cable_ok and front_ok take their present values, each fall with its reason; the cable lane units read front_ok. -/
def State.refreshReady (L : Leg) (s : State) : State :=
  let cf := s.cableFail L
  let ff := s.frontFail L
  (s.modCtx L fun c => { c with
    cableOk := cf.isNone
    frontOk := ff.isNone
    cable := { c.cable with lastReason := reasonAfter c.cableOk cf c.cable.lastReason }
    front := { c.front with lastReason := reasonAfter c.frontOk ff c.front.lastReason } }).evalTx L

/-! ## Entries -/

/-- A far result that lets READY go on to UP: fresh, in READY or UP (R144). -/
def FarResult.carriesUp : FarResult → Bool
  | .fresh f => f.state == .ready || f.state == .up
  | .absent | .stale | .planDiffers _ => false

/-- A far result that is fresh in CHECK (R160). -/
def FarResult.inCheck : FarResult → Bool
  | .fresh f => f.state == .check
  | .absent | .stale | .planDiffers _ => false

/-- A far result that is fresh with its claim flag set (R158). -/
def FarResult.claims : FarResult → Bool
  | .fresh f => f.claim
  | .absent | .stale | .planDiffers _ => false

def FarResult.differs : FarResult → Bool
  | .planDiffers _ => true
  | .absent | .stale | .fresh _ => false

/-- Entry to UP (R145). -/
def enterUp (unattended : Bool) (L : Leg) (s : State) : State :=
  let s := setLegCause L .none (setLegState L .up s)
  s.modCtx L fun c => { c with solo := none, up := s.start (msec 10000), unattended := unattended }

/-- Entry to READY (R144): the solo timer starts; a fresh far READY or UP in force takes the context on to UP. -/
def enterReady (L : Leg) (s : State) : State :=
  let s := setLegState L .ready s
  let s := s.modCtx L fun c => { c with solo := s.start s.soloWait }
  if (s.ctx L).far.carriesUp then enterUp false L s else s

/-- Entry to FAULTED with cause PLAN_MISMATCH, held (R149, R151); from UP an alert is originated. -/
def enterMismatch (L : Leg) (s : State) : State :=
  let fromUp := (s.ctx L).state = .up
  let s := setLegCause L .planMismatch (setLegState L .faulted s)
  let s := s.modCtx L fun c => { c with held := true, solo := none, up := none, dormancy := none, unattended := false }
  if fromUp then originate .legDown (legDownCode .planMismatch) L [L] s.interval s else s

/-- The dormancy timer starts where front_present is false and R152 lets it run. -/
def startDormancy (L : Leg) (s : State) : State :=
  let c := s.ctx L
  let awake := c.state == .rising || c.state == .ready || c.state == .up || c.state == .faulted
  if awake && !c.mismatchHeld && !s.frontPresent L then
    s.modCtx L fun c => { c with dormancy := s.start s.dormancyDelay }
  else s

/-- Restart the engines of every front lane of a context (R55). -/
def restartTuning (L : Leg) (s : State) : State :=
  ((forLanes State.restartTuner (s.frontLanes L) s).evalTx L).refreshReady L

/-- Where RISING goes on at once (R143): FAULTED under a far plan that differs, READY with both readiness conditions. -/
def risingGoesOn (L : Leg) (s : State) : State :=
  let c := s.ctx L
  if c.far.differs then enterMismatch L s
  else if c.frontOk && c.cableOk then enterReady L s
  else s

/-- Entry to RISING (R143): a fault-hold timer left running through a PLAN_MISMATCH hold runs
    on (log 25); `retune` where R55 restarts tuning, `dorm` where R152 may start the dormancy
    timer. -/
def enterRising (retune dorm : Bool) (L : Leg) (s : State) : State :=
  let s := setLegState L .rising s
  let s := if retune then restartTuning L s else s
  let s := if dorm then startDormancy L s else s
  risingGoesOn L s

/-- Entry to FAULTED from UP for a cause other than PLAN_MISMATCH (R149), without its alert. -/
def enterFaulted (cause : Cause) (L : Leg) (s : State) : State :=
  let s := setLegCause L cause (setLegState L .faulted s)
  s.modCtx L fun c =>
    let r := satInc 7 c.retry
    { c with
      solo := none, up := none, unattended := false, retry := r, held := r == 7
      faultHold := if r = 7 then c.faultHold else s.start (msec 50) }

/-- A readiness fall in UP (R146): FAULTED with the reason as cause, and a LEG_DOWN alert. -/
def faultByFall (cause : Cause) (L : Leg) (s : State) : State :=
  let s := enterFaulted cause L s
  originate .legDown (legDownCode cause) L [L] s.interval s

/-! ## Readiness handed to the leg controller (R78, R143, R144, R146) -/

/-- The readiness conditions are computed again and each change acts on the leg.  A fall of cable_ok is handed before
one of front_ok (log 27). -/
def handReadiness (L : Leg) (s : State) : State :=
  let c0 := s.ctx L
  let s := s.refreshReady L
  let c := s.ctx L
  let cableFell := c0.cableOk && !c.cableOk
  let frontFell := c0.frontOk && !c.frontOk
  let rose := (!c0.cableOk && c.cableOk) || (!c0.frontOk && c.frontOk)
  match c.state with
  | .rising => if rose && c.frontOk && c.cableOk then enterReady L s else s
  | .ready => if cableFell || frontFell then enterRising false false L s else s
  | .up =>
    if cableFell then faultByFall ((s.cableFail L).getD .cableLoss) L s
    else if frontFell then faultByFall ((s.frontFail L).getD .frontLoss) L s
    else s
  | .dormant | .faulted | .check => s

/-! ## Segment check (8.7) -/

/-- Arm a cable lane's pattern checker (R36). -/
def armChecker (k : CLane) (s : State) : State :=
  let locked := (s.lane (cableLane k)).rx == .locked
  s.modChecker k fun ch => { ch with
    armed := true, dead := !locked, count := if locked then 0 else cap16, toLoad := 16, missRun := 0 }

/-- Disarm a checker: its count freezes (R36). -/
def Checker.disarm (ch : Checker) : Checker := { ch with armed := false, dead := false, toLoad := 0, missRun := 0 }

/-- The pattern counts of the check result once the checkers of a context are disarmed: an armed checker hands its frozen
count over, and the entry of one that is not armed stands (R36, R162). -/
def State.frozenCounts (s : State) (L : Leg) : List Nat :=
  (s.cableLanes L).mapIdx fun i k =>
    if (s.checker k).armed then (s.checker k).count else (s.ctx L).patternCounts.getD i 0

/-- Disarm the checkers of a context (R36, R161, R162). -/
def disarmCheckers (L : Leg) (s : State) : State :=
  let counts := s.frozenCounts L
  (forLanes (fun k s => s.modChecker k Checker.disarm) (s.cableLanes L) s).modCtx L fun c =>
    { c with patternCounts := counts }

/-- The length of the check timer (R160). -/
def checkTime : Nat := msec 100

/-- Entry to CHECK (R158, R160); `outcome` is what the entry leaves as outcome. -/
def enterCheck (role : CheckRole) (outcome : Option CheckOutcome) (L : Leg) (s : State) : State :=
  let s := setLegState L .check s
  let s := s.modCtx L fun c => { c with
    role := some role, outcome := outcome
    solo := none, faultHold := none, up := none, dormancy := none, claimWait := none
    unattended := false, held := false }
  match role with
  | .claimant =>
    forLanes armChecker (s.cableLanes L) (s.modCtx L fun c => { c with check := s.start checkTime })
  | .follower =>
    if (s.ctx L).far.inCheck then s
    else s.modCtx L fun c => { c with supervision := s.start (4 * s.beaconPeriod) }

/-- A check that has not ended is aborted (R162), without the state after it. -/
def abortCheck (L : Leg) (s : State) : State :=
  let s := setClaim L false (disarmCheckers L s)
  (s.modCtx L fun c => { c with outcome := some .aborted, check := none, supervision := none, release := none }).setCause
    .checkDone

/-- A far result handed in CHECK, its plan agreeing (R160, R161). -/
def farInCheck (L : Leg) (s : State) : State :=
  let c := s.ctx L
  if c.inRelease then
    if c.far.inCheck then s
    else enterRising false true L (s.modCtx L fun c => { c with release := none })
  else if c.far.inCheck then
    let s := s.modCtx L fun c => { c with supervision := none }
    if c.role = some .follower ∧ c.check = none then
      forLanes armChecker (s.cableLanes L) (s.modCtx L fun c => { c with check := s.start checkTime })
    else s
  else if c.supervision.isNone then s.modCtx L fun c => { c with supervision := s.start (4 * s.beaconPeriod) }
  else s

/-- A fresh far claim handed to a context that can follow it (R158, R159). -/
def farClaim (L : Leg) (s : State) : State :=
  if (s.ctx L).claim then
    if (s.farStation L).val < s.station.val then
      let s := setClaim L false s
      let s := (s.modCtx L fun c => { c with claimWait := none, outcome := some .yielded }).setCause .checkDone
      enterCheck .follower (some .yielded) L s
    else s
  else enterCheck .follower none L s

/-- What is left of a far result after its plan and its claim: its state, or silence (R144, R147, R150). -/
def farState (L : Leg) (s : State) : State :=
  let c := s.ctx L
  match c.state, c.far with
  | .ready, .fresh _ =>
    if c.far.carriesUp then enterUp false L s else s.modCtx L fun c => { c with solo := s.start s.soloWait }
  | .up, .fresh _ =>
    if c.far.carriesUp then s.modCtx L fun c => { c with unattended := false } else enterReady L s
  | .up, .stale | .up, .absent => s.modCtx L fun c => { c with unattended := true }
  | _, _ => s

/-- What is left of a far result whose plan agrees: its claim, then its leg state (R142).  `released`: this handing has ended
a PLAN_MISMATCH hold, and R158 leaves a context held at the handing out, so that only an own claim meets the result's claim
(log 14). -/
def readFar (released : Bool) (L : Leg) (s : State) : State :=
  let c := s.ctx L
  if c.far.claims && !(released && !c.claim) then farClaim L s
  else if c.claim && c.far.inCheck then enterCheck .claimant none L s
  else farState L s

/-- The roster hands a far result (R142): it replaces the result in force, and is read for its plan first, then its
claim, then its state.  One whose plan agrees ends a PLAN_MISMATCH hold with an entry to RISING (R151) before it is read
further. -/
def handFar (L : Leg) (r : FarResult) (s : State) : State :=
  let s := s.modCtx L fun c => { c with far := r }
  let c := s.ctx L
  if c.state = .dormant then s
  else if s.outOfPlan then s
  else if r.differs then
    if c.mismatchHeld then s
    else if c.inRelease then enterMismatch L (s.modCtx L fun c => { c with release := none })
    else if c.state = .check then enterMismatch L (abortCheck L s)
    else enterMismatch L s
  else if c.mismatchHeld then readFar true L (enterRising true true L s)
  else if c.state = .check then farInCheck L s
  else readFar false L s

/-! ## Dormancy (8.5) -/

/-- Entry to DORMANT (R154, R56). -/
def enterDormant (L : Leg) (s : State) : State :=
  let s := setLegState L .dormant s
  let s := s.modCtx L fun c => { c with
    solo := none, faultHold := none, up := none, dormancy := none, claimWait := none
    unattended := false, held := false, retry := 0 }
  let s := if (s.ctx L).claim then
      ((setClaim L false s).modCtx L fun c => { c with
        outcome := some .aborted, role := some .claimant }).setCause .checkDone
    else s
  ((forLanes (fun k s => s.modTuner k Tuner.toWaiting) (s.frontLanes L) s).evalTx L).refreshReady L

/-- A HUSH from the far station naming the leg (R153). -/
def hushLeg (L : Leg) (s : State) : State :=
  let c := s.ctx L
  if c.mismatchHeld then s
  else match c.state with
    | .rising | .ready | .up | .faulted => enterDormant L s
    | .dormant | .check => s

/-- A WAKE from the far station naming the leg (R155). -/
def wakeLeg (L : Leg) (s : State) : State :=
  match (s.ctx L).state with
  | .dormant => enterRising true true L s
  | .rising | .ready | .up | .faulted | .check => s

/-- front_present of a context has changed from `was` (R29): the dormancy timer (R152), a reseat of a held context
(R150), waking (R155). -/
def presenceChanged (L : Leg) (was : Bool) (s : State) : State :=
  let now := s.frontPresent L
  if was = now then s
  else if now then
    let c := s.ctx L
    let s := s.modCtx L fun c => { c with dormancy := none }
    if c.state = .dormant then enterRising true false L (s.queueSleep .wake L)
    else if c.state = .faulted ∧ c.held ∧ !c.mismatchHeld then
      enterRising true false L (s.modCtx L fun c => { c with retry := 0 })
    else s
  else startDormancy L s

/-! ## Strain events (R148) -/

/-- A STRAIN event carrying the closed interval `t`, handed to a context. -/
def strainEvent (L : Leg) (t : IntervalNo) (s : State) : State :=
  if (s.ctx L).state ≠ .up then s
  else if s.image.strainFault then
    let s := enterFaulted .strain L s
    if s.originates .legDown then originate .legDown (legDownCode .strain) L [L] t s
    else originate .strain 1 L [L] t s
  else originate .strain 1 L [L] t s

end Sys2Proof.Machine
end

