-- ==== Sys2Proof/Machine/Intervals.lean ====
section
/-! DEFINITION. The interval close: records, strain and grades, rings, filling captures, and what is handed on (R83 to
R100, R168, R179). -/

namespace Sys2Proof.Machine

/-! ## One segment (R85 steps 1 and 2) -/

/-- A segment's part of the record its close makes (R87 to R93). -/
def segRecord (img : Image) (x : Seg) : SegRecord :=
  let s' := strainAfter x.strain (incrementOf img x.acc) img.decay
  { n := x.acc.n, t := tailOf x.acc, u := x.acc.u, dn := densityOf x.acc
    strain := s', grade := gradeAfter img x.grade s'
    loss := x.acc.loss, saturated := x.acc.saturated }

/-- The segment after its close: strain and grade of the record, one entry into FAIL counted (R95), the accumulators
taken (R70). -/
def closeSeg (img : Image) (x : Seg) : Seg :=
  let r := segRecord img x
  { x with
    strain := r.strain, grade := r.grade
    failEntries := if x.grade ≠ .fail ∧ r.grade = .fail then satInc cap16 x.failEntries else x.failEntries
    acc := { loss := x.align == .search } }

/-- Whether a segment enters FAIL at the close (R95). -/
def entersFail (img : Image) (x : Seg) : Bool := x.grade != .fail && (segRecord img x).grade == .fail

/-! ## One context (R85) -/

/-- The record of a context for the closing interval (R85 step 4). -/
def ctxRecord (img : Image) (c : IntervalNo) (x : Ctx) : Record :=
  let f := segRecord img x.front
  let b := segRecord img x.cable
  { interval := c, state := x.state, grade := worse f.grade b.grade, front := f, cable := b }

/-- The ring takes a record as its newest; at its depth the oldest goes first (R168). -/
def pushRing (depth : Nat) (ring : List Record) (r : Record) : List Record :=
  (if ring.length < depth then ring else ring.drop (ring.length + 1 - depth)) ++ [r]

/-- A context after its close (R85 steps 1 to 5). -/
def closeCtx (img : Image) (c : IntervalNo) (x : Ctx) : Ctx :=
  let r := ctxRecord img c x
  { x with
    front := closeSeg img x.front, cable := closeSeg img x.cable
    legGrade := r.grade
    ring := pushRing img.depth x.ring r }

/-- A FILLING capture whose window includes the record's interval takes it, and is HELD when it is that of T + A
(R179). -/
def Capture.take (img : Image) (r : Record) (x : Capture) : Capture :=
  if x.state = .filling ∧ (windowOf img x.t).contains r.interval then
    { x with
      records := x.records ++ [r]
      state := if r.interval = x.t + BitVec.ofNat 16 img.capA then .held else .filling }
  else x

/-- The captures of context `L` take its record; CAPTURE_DONE where one becomes HELD. -/
def fillCaptures (L : Leg) (r : Record) (s : State) : State :=
  let done := all8.any fun i => match s.slot i with
    | some x => x.leg == L && x.state == .filling && (x.take s.image r).state == .held
    | none => false
  let s := s.modCaptures fun x => if x.leg = L then x.take s.image r else x
  if done then s.setCause .captureDone else s

/-- R85 steps 1 to 5 for one context. -/
def closeLeg (c : IntervalNo) (L : Leg) (s : State) : State :=
  let r := ctxRecord s.image c (s.ctx L)
  fillCaptures L r (s.modCtx L (closeCtx s.image c))

/-! ## Handing on (R85 step 6) -/

/-- A change of leg grade sets GRADE_CHANGE and sends a change notice (R96). -/
def handGrade (before : Grade) (L : Leg) (s : State) : State :=
  if (s.ctx L).legGrade = before then s else (s.setCause .gradeChange).changeNotice

/-- The grade and the STRAIN event of one context, from its values before the close (R95, R96). -/
def handClose (c : IntervalNo) (before : Ctx) (L : Leg) (s : State) : State :=
  let s := handGrade before.legGrade L s
  if entersFail s.image before.front || entersFail s.image before.cable then strainEvent L c s else s

/-- INTERVAL_CLOSE (R83 to R86): interval c closes for every context and c + 1 opens; each queued ALERT counts the
close (R123); then each context's results are handed on, in ascending leg order. -/
def execIntervalClose (s : State) : Host.Outcome State Fault Refusal :=
  if s.phase ≠ .running then .next s
  else
    let s := s.reach s.intervalEnd
    let c := s.interval
    let before := fun L => s.ctx L
    let legs := s.legs
    let s := forLegs (closeLeg c) legs s
    let s := { s with
      interval := c + 1
      intervalEnd := s.intervalEnd.map (· + s.intervalLen) }
    let s := s.modLine Line.ageAlerts
    .next (forLegs (fun L => handClose c (before L) L) legs s)

end Sys2Proof.Machine
end

