-- ==== Sys2Proof/Machine/LegTimers.lean ====
section
/-! DEFINITION. The expiries of a leg context's timers (R141 to R162). -/

namespace Sys2Proof.Machine

/-- A far result that is neither STALE nor ABSENT (R144). -/
def FarResult.isFresh : FarResult → Bool
  | .fresh _ => true
  | .planDiffers _ => true
  | .absent => false
  | .stale => false

/-- SOLO_TIMER_EXPIRY (R144): UP unattended where the far end is silent, else the wait starts again. -/
def execSoloTimerExpiry (L : Leg) (s : State) : Host.Outcome State Fault Refusal :=
  let c := s.ctx L
  if c.solo = none then .next s
  else
    let s := s.reach c.solo
    if c.far.isFresh then .next (s.modCtx L fun c => { c with solo := s.start s.soloWait })
    else .next (enterUp true L s)

/-- FAULT_HOLD_EXPIRY (R150): a context in FAULTED and not held goes to RISING.  Under a PLAN_MISMATCH hold the expiry
changes nothing else (R151, log 25). -/
def execFaultHoldExpiry (L : Leg) (s : State) : Host.Outcome State Fault Refusal :=
  let c := s.ctx L
  if c.faultHold = none then .next s
  else
    let s := (s.reach c.faultHold).modCtx L fun c => { c with faultHold := none }
    if c.state = .faulted ∧ !c.held then .next (enterRising true false L s) else .next s

/-- UP_TIMER_EXPIRY (R145): 10 s of UP set the retry count to 0. -/
def execUpTimerExpiry (L : Leg) (s : State) : Host.Outcome State Fault Refusal :=
  let c := s.ctx L
  if c.up = none then .next s
  else .next ((s.reach c.up).modCtx L fun c => { c with up := none, retry := 0 })

/-- DORMANCY_TIMER_EXPIRY (R152): a HUSH is queued and the context enters DORMANT. -/
def execDormancyTimerExpiry (L : Leg) (s : State) : Host.Outcome State Fault Refusal :=
  let c := s.ctx L
  if c.dormancy = none then .next s
  else .next (enterDormant L ((s.reach c.dormancy).queueSleep .hush L))

/-- CLAIM_WAIT_EXPIRY (R157): no partner answered the claim. -/
def execClaimWaitExpiry (L : Leg) (s : State) : Host.Outcome State Fault Refusal :=
  let c := s.ctx L
  if c.claimWait = none then .next s
  else
    let s := setClaim L false (s.reach c.claimWait)
    .next ((s.modCtx L fun c => { c with claimWait := none, outcome := some .noPartner }).setCause .checkDone)

/-- The outcome of a check that ends at its timer (R161). -/
def checkOutcome (limit : Nat) (c : Ctx) : CheckOutcome :=
  if c.far.inCheck then (if c.patternCounts.all fun n => n ≤ limit then .pass else .fail) else .aborted

/-- The check ends at this end (R161), up to the outcome it records. -/
def endCheck (L : Leg) (s : State) : State :=
  let s := setClaim L false (disarmCheckers L s)
  (s.modCtx L fun c => { c with
    check := none, supervision := none
    outcome := some (checkOutcome s.image.checkLimit c) }).setCause .checkDone

/-- CHECK_TIMER_EXPIRY (R161): the outcome is recorded, a FAIL originates CHECK_FAIL, and the context rises at once or,
as a claimant with PASS or FAIL, enters the release phase. -/
def execCheckTimerExpiry (L : Leg) (s : State) : Host.Outcome State Fault Refusal :=
  let c := s.ctx L
  if c.check = none then .next s
  else
    let s := endCheck L (s.reach c.check)
    let o := (s.ctx L).outcome
    let s := if o = some .fail then originate .checkFail 2 L [L] s.interval s else s
    if (s.ctx L).role = some .claimant ∧ o ≠ some .aborted then
      .next (s.modCtx L fun c => { c with release := s.start (4 * s.beaconPeriod) })
    else .next (enterRising false true L s)

/-- SUPERVISION_TIMER_EXPIRY (R162): the check is aborted. -/
def execSupervisionTimerExpiry (L : Leg) (s : State) : Host.Outcome State Fault Refusal :=
  let c := s.ctx L
  if c.supervision = none then .next s
  else .next (enterRising false true L (abortCheck L (s.reach c.supervision)))

/-- CHECK_RELEASE_TIMER_EXPIRY (R161): the release phase ends. -/
def execCheckReleaseTimerExpiry (L : Leg) (s : State) : Host.Outcome State Fault Refusal :=
  let c := s.ctx L
  if c.release = none then .next s
  else .next (enterRising false true L ((s.reach c.release).modCtx L fun c => { c with release := none }))

end Sys2Proof.Machine
end

