-- ==== Sys2Proof/Machine/MonitorUnit.lean ====
section
/-! DEFINITION. The codeword monitor and the gearbox: judging a marker (R60, R17), skew and alignment (R64 to R66),
splits and merges (R72 to R75), and what a lane that leaves IN_LOCK takes with it (R62). -/

namespace Sys2Proof.Machine

/-- The segment a lane belongs to. -/
def segmentOf (l : Lane) : Segment := if isFront l then .frontIn else .cableIn

/-- The lanes of a context's segment. -/
def State.segLanes (s : State) (L : Leg) : Segment → List Lane
  | .frontIn => (s.frontLanes L).map frontLane
  | .cableIn => (s.cableLanes L).map cableLane

/-- A lane's polarity-invert bit in the loaded image (R4, R17). -/
def State.polarity (s : State) (l : Lane) : Bool :=
  if isFront l then s.image.frontInvert.getLsbD (laneNo l).val else s.image.cableInvert.getLsbD (laneNo l).val

/-- What the monitor makes of a marker position (R60). -/
inductive MarkerVerdict
  | good (arrival : Nat)
  | otherIndex
  | bad
deriving DecidableEq, Repr

/-- A complete pattern with the lane's own index is good and one with another index a mismatch; a pattern whose levels
the polarity bit does not put right is no pattern (R17). -/
def State.judge (s : State) (l : Lane) : MarkerRead → MarkerVerdict
  | .pattern i arrival swapped =>
    if swapped != s.polarity l then .bad
    else if i.val = s.laneIndex l then .good arrival
    else .otherIndex
  | .damaged => .bad
  | .nothing => .bad

/-- The position of a marker of lane `l`: its arrival, reduced modulo the marker period (R64). -/
def State.markerPos (s : State) (l : Lane) (arrival : Nat) : Nat := arrival % markerPeriod (s.laneClass l)

/-! ## Gearbox -/

/-- A split loses its prime, if it has it, or its priming (R72, R73). -/
def Split.unprime (counted : Bool) (x : Split) : Split :=
  { x with
    prime := .unprimed, bad := 0
    losses := if x.prime = .primed ∧ counted then satInc cap16 x.losses else x.losses }

/-- A merge loses its prime, if it has it, or its priming (R74, R75). -/
def Merge.unprime (counted : Bool) (x : Merge) : Merge :=
  { x with
    prime := .unprimed, badEven := 0, badOdd := 0
    losses := if x.prime = .primed ∧ counted then satInc cap16 x.losses else x.losses }

/-- A split at an expected marker position of its lane (R72, R73); `aligned`: the cable segment was ALIGNED before
this marker and still is. -/
def Split.marker (good aligned : Bool) (x : Split) : Split :=
  match x.prime, good with
  | .unprimed, true => if aligned then { x with prime := .priming, bad := 0 } else x
  | .unprimed, false => x
  | .priming, true => { x with prime := .primed, bad := 0 }
  | .priming, false => x.unprime true
  | .primed, true => { x with bad := 0 }
  | .primed, false => if x.bad = 0 then { x with bad := 1 } else x.unprime true

/-- The marker period of class 1, in which pair skew is measured (R74). -/
def pairPeriod : Nat := 17408

/-- Set the bad-marker count of one lane of the pair. -/
def Merge.setBad (odd : Bool) (n : Nat) (x : Merge) : Merge :=
  if odd then { x with badOdd := n } else { x with badEven := n }

def Merge.bad (odd : Bool) (x : Merge) : Nat := if odd then x.badOdd else x.badEven

/-- A marker pair completes (R74). -/
def Merge.pairDone (x : Merge) : Merge :=
  match x.prime with
  | .unprimed => { x with prime := .priming, half := none }
  | .priming => { x with prime := .primed, badEven := 0, badOdd := 0, half := none }
  | .primed => { x with half := none }

/-- Two first symbols lie within 192 symbols of each other (R74). -/
def withinSkew (a b : Nat) : Bool := a ≤ b + skewLimit && b ≤ a + skewLimit

/-- A good marker that arrives at `arrival` on one lane of the pair (R74, R75).  `skew` is the pair skew then, none while a lane is not
marker-locked; `counts` tells a marker of a lane already in IN_LOCK from the one that locked it.  A pair completes at
the later of its two markers, which lie within 192 symbols of each other; markers of different periods make none (log 12). -/
def Merge.goodMarker (odd counts : Bool) (arrival : Nat) (skew : Option Nat) (x : Merge) : Merge :=
  let x := { x with pairSkew := skew }
  match skew with
  | none => x
  | some v =>
    if skewLimit < v then { x.unprime true with half := if counts then some (odd, arrival) else none }
    else
      let x := x.setBad odd 0
      if !counts then x
      else
        let completes := match x.half with
          | some (o, p) => o != odd && withinSkew arrival p
          | none => false
        if completes then x.pairDone else { x with half := some (odd, arrival) }

/-- A bad marker at the expected position of one lane of the pair (R74, R75). -/
def Merge.badMarker (odd : Bool) (x : Merge) : Merge :=
  let x := { x with half := none }
  match x.prime with
  | .unprimed => x
  | .priming => x.unprime true
  | .primed => if x.bad odd = 0 then x.setBad odd 1 else x.unprime true

/-- Either lane of the pair has left IN_LOCK (R74, R75). -/
def Merge.lockLost (counted : Bool) (x : Merge) : Merge :=
  { x.unprime counted with half := none, pairSkew := none }

/-- The pair a front lane belongs to, and whether it is its odd lane (R71). -/
def pairOf (k : FLane) : CLane × Bool := (⟨k.val / 2, by omega⟩, k.val % 2 == 1)

/-- The pair skew, present while both lanes are marker-locked (R74). -/
def State.pairSkew (s : State) (j : CLane) : Option Nat :=
  let a := s.lane ⟨2 * j.val % 8, by omega⟩
  let b := s.lane ⟨(2 * j.val + 1) % 8, by omega⟩
  if a.lock = .inLock ∧ b.lock = .inLock then some (skewOf pairPeriod [a.pos, b.pos]) else none

/-! ## Alignment -/

/-- A segment in ALIGNED returns to SEARCH (R65, R69); the splits of a cable segment are unprimed (R72, R73). -/
def segToSearch (L : Leg) (g : Segment) (counted : Bool) (s : State) : State :=
  if ((s.ctx L).seg g).align = .aligned then
    let s := s.modSeg L g fun x => { x with
      align := .search
      alignLosses := if counted then satInc cap16 x.alignLosses else x.alignLosses
      acc := { x.acc with loss := true } }
    if g = .cableIn ∧ s.gear then
      forLanes (fun k s => s.modSplit k (Split.unprime counted)) (s.cableLanes L) s
    else s
  else s

/-- The skew of a segment with every lane marker-locked (R64). -/
def State.segSkew (s : State) (L : Leg) (g : Segment) : Option Nat :=
  let ls := s.segLanes L g
  if ls.all fun l => (s.lane l).lock == .inLock then
    some (skewOf (match g with
      | .frontIn => markerPeriod s.image.frontClass
      | .cableIn => markerPeriod 2) (ls.map fun l => (s.lane l).pos))
  else none

/-- The skew flag is set and counted (R66). -/
def Seg.setSkewFlag (x : Seg) : Seg :=
  if x.skewFlag then x else { x with skewFlag := true, skewExcess := satInc cap16 x.skewExcess }

/-- A good marker on a lane of the segment: its skew is computed if every lane is marker-locked, and alignment follows
(R64 to R66). -/
def goodMarkerOnSegment (L : Leg) (g : Segment) (s : State) : State :=
  match s.segSkew L g with
  | none => s
  | some v =>
    let s := s.modSeg L g fun x => { x with skew := some v }
    if v ≤ skewLimit then s.modSeg L g fun x => { x with align := .aligned, skewFlag := false }
    else (segToSearch L g true s).modSeg L g Seg.setSkewFlag

/-- A lane leaves FOUND or IN_LOCK for HUNT (R61, R62).  From IN_LOCK its segment loses alignment and skew and its paths
their prime; `counted` is false where RESTART_LEG is the cause. -/
def laneToHunt (l : Lane) (counted : Bool) (s : State) : State :=
  let wasLocked := (s.lane l).lock = .inLock
  let s := s.modLane l fun u => { u with
    lock := .hunt, badRun := 0
    markerLosses := if wasLocked ∧ counted then satInc cap16 u.markerLosses else u.markerLosses }
  if wasLocked then
    match s.owner l with
    | none => s
    | some L =>
      let g := segmentOf l
      let s := (segToSearch L g counted s).modSeg L g fun x => { x with skew := none, skewFlag := false }
      if isFront l ∧ s.gear then s.modMerge (pairOf (laneNo l)).1 (Merge.lockLost counted) else s
  else s

/-- A good marker of lane `l` that arrives at `arrival` acts on its gearbox paths; `counts`: the lane was in IN_LOCK already; `wasAligned`: the
segment was ALIGNED before it. -/
def goodMarkerOnPaths (L : Leg) (l : Lane) (arrival : Nat) (counts wasAligned : Bool) (s : State) : State :=
  if !s.gear then s
  else if isFront l then
    let p := pairOf (laneNo l)
    let sk := s.pairSkew p.1
    s.modMerge p.1 (Merge.goodMarker p.2 counts arrival sk)
  else
    let still := wasAligned && ((s.ctx L).cable.align == .aligned)
    s.modSplit (laneNo l) (Split.marker true still)

/-- A bad marker of a lane that stays in IN_LOCK acts on its gearbox paths. -/
def badMarkerOnPaths (l : Lane) (s : State) : State :=
  if !s.gear then s
  else if isFront l then s.modMerge (pairOf (laneNo l)).1 (Merge.badMarker (pairOf (laneNo l)).2)
  else s.modSplit (laneNo l) (Split.marker false false)

/-- A lane's receiver has left LOCKED (R26 to R28, R36, R54, R62). -/
def receiverLeftLocked (l : Lane) (counted : Bool) (s : State) : State :=
  let s := if isFront l then s.modTuner (laneNo l) Tuner.lostLock
    else s.modChecker (laneNo l) fun ch => if ch.armed then { ch with dead := true, count := cap16 } else ch
  laneToHunt l counted s

/-- The context's lane units evaluate their tables, and the context's readiness is handed on, after something has changed on a
lane (R30, R78). -/
def laneChanged (l : Lane) (s : State) : State :=
  match s.owner l with
  | none => s
  | some L => handReadiness L (s.evalTx L)

end Sys2Proof.Machine
end

