-- ==== Sys2Proof/Machine/MonitorEvents.lean ====
section
/-! DEFINITION. The meanings of the monitor's events: markers (R60, R61), codewords (R67, R68), and of a symbol taken by
a pattern checker (R36). -/

namespace Sys2Proof.Machine

/-- MARKER_FOUND (R60): in HUNT a complete pattern with the lane's index leads to FOUND; one with another index is
counted as a mismatch. -/
def execMarkerFound (l : Lane) (index : Fin 16) (arrival : Nat) (swapped : Bool) (s : State) :
    Host.Outcome State Fault Refusal :=
  let u := s.lane l
  if u.rx = .locked ∧ u.lock = .hunt then
    match s.judge l (.pattern index arrival swapped) with
    | .good a => .next (s.modLane l fun u => { u with lock := .found, pos := s.markerPos l a })
    | .otherIndex => .next (s.modLane l fun u => { u with mismatches := satInc cap16 u.mismatches })
    | .bad => .next s
  else .next s

/-- A good marker at the expected position (R60, R61, R64). -/
def goodMarker (L : Leg) (l : Lane) (arrival : Nat) (s : State) : State :=
  let counts := (s.lane l).lock == .inLock
  let wasAligned := ((s.ctx L).seg (segmentOf l)).align == .aligned
  let s := s.modLane l fun u => { u with lock := .inLock, badRun := 0, pos := s.markerPos l arrival }
  goodMarkerOnPaths L l arrival counts wasAligned (goodMarkerOnSegment L (segmentOf l) s)

/-- A bad marker at the expected position (R60, R61): FOUND returns to HUNT, IN_LOCK leaves at the fourth in a row. -/
def badMarker (l : Lane) (s : State) : State :=
  let u := s.lane l
  if u.lock = .inLock ∧ u.badRun < 3 then
    badMarkerOnPaths l (s.modLane l fun u => { u with badRun := u.badRun + 1 })
  else laneToHunt l true s

/-- MARKER_CHECK (R60, R61). -/
def execMarkerCheck (l : Lane) (reading : MarkerRead) (s : State) : Host.Outcome State Fault Refusal :=
  let u := s.lane l
  match s.owner l with
  | none => .next s
  | some L =>
    if u.rx = .locked ∧ u.lock ≠ .hunt then
      match s.judge l reading with
      | .good a => .next (laneChanged l (goodMarker L l a s))
      | .otherIndex =>
        .next (laneChanged l (badMarker l (s.modLane l fun u => { u with mismatches := satInc cap16 u.mismatches })))
      | .bad => .next (laneChanged l (badMarker l s))
    else .next s

/-- One increment of an accumulator; one that finds its count at the top sets the saturated flag (R68). -/
def bump (n : Nat) : Nat × Bool := if n < capAcc then (n + 1, false) else (n, true)

/-- A classified codeword in the open interval's accumulators (R68). -/
def Accum.count (c : CodewordClass) (a : Accum) : Accum :=
  let n := bump a.n
  match c with
  | .errored k =>
    let x := bump (a.h.get k)
    { a with n := n.1, h := a.h.set k.val x.1 k.isLt, saturated := a.saturated || n.2 || x.2 }
  | .uncorrectable =>
    let x := bump a.u
    { a with n := n.1, u := x.1, saturated := a.saturated || n.2 || x.2 }

/-- CODEWORD_CLASSIFIED (R67, R68): only a segment in ALIGNED classifies. -/
def execCodewordClassified (L : Leg) (g : Segment) (c : CodewordClass) (s : State) :
    Host.Outcome State Fault Refusal :=
  if ((s.ctx L).seg g).align = .aligned then
    .next (s.modSeg L g fun x => { x with acc := x.acc.count c })
  else .next s

/-- A symbol delivered to an armed checker (R36): loaded, or compared with the prediction. -/
def Checker.take (x : Level) (ch : Checker) : Checker :=
  if 0 < ch.toLoad then { ch with reg := loadSymbol ch.reg x, toLoad := ch.toLoad - 1 }
  else
    let p := prbsSymbol ch.reg
    if p.1 = x then { ch with reg := p.2, missRun := 0 }
    else if ch.missRun + 1 < 8 then
      { ch with reg := p.2, missRun := ch.missRun + 1, count := satInc cap16 ch.count }
    else { ch with reg := p.2, missRun := 0, toLoad := 16, count := satInc cap16 ch.count }

/-- PATTERN_CHECKER_SYMBOL (R36, R17): the polarity bit acts before the checker. -/
def execPatternCheckerSymbol (k : CLane) (level : Level) (s : State) : Host.Outcome State Fault Refusal :=
  let ch := s.checker k
  if ch.armed ∧ !ch.dead ∧ (s.lane (cableLane k)).rx = .locked then
    let x := if s.polarity (cableLane k) then complementLevel level else level
    .next (s.modChecker k (Checker.take x))
  else .next s

end Sys2Proof.Machine
end

