-- ==== Sys2Proof/Machine/LineBits.lean ====
section
/-! DEFINITION. The peer line bit by bit: what a station makes of the levels it reads (R101, R115), and what the bits of a message
tell: the bit that shows a format error (R105), and its end (R106). -/

namespace Sys2Proof.Machine

/-- The idle run after which the line is idle for a station (R101). -/
def idleBits : Nat := 8

/-- One bit read at the moment `t`, false dominant and true recessive (R101, R115).  The idle run counts recessive bits while no
message is under way; a dominant bit is a start mark where the line is idle, which a station in STUCK finds at STUCK_EXIT
only.  `heard` keeps the bits of the message under way. -/
def Line.hearBit (t : Nat) (level : Bool) (l : Line) : Line :=
  let l := { l with heard := if l.underWay then l.heard ++ [level] else l.heard }
  if level then { l with domRun := 0, idleRun := if l.underWay then l.idleRun else satInc 255 l.idleRun }
  else
    let read := { l with idleRun := 0, domRun := satInc 255 l.domRun }
    if !l.underWay && l.mode != .stuck && idleBits ≤ l.idleRun then
      { read with underWay := true, startMark := some t, heard := [level] }
    else read

/-! ## The bit that shows a format error (R105) -/

/-- A field of a message: bits no fault of R105 looks at, or a value of which some are faults. -/
inductive Field
  | free (width : Nat)
  | limited (width value : Nat) (ok : Nat → Bool)

/-- After how many of a field's bits no value free of fault begins with them. -/
def shownAt (width value : Nat) (ok : Nat → Bool) : Option Nat :=
  (List.range' 1 width).find? fun k => (List.range (2 ^ width)).all fun v =>
    !(ok v && v / 2 ^ (width - k) == value / 2 ^ (width - k))

/-- The number of content bits that show the first fault, `n` of them before these fields. -/
def firstFault : Nat → List Field → Option Nat
  | _, [] => none
  | n, .free w :: fs => firstFault (n + w) fs
  | n, .limited w v ok :: fs =>
    match shownAt w v ok with
    | some k => some (n + k)
    | none => firstFault (n + w) fs

/-- A leg field that must name a leg. -/
def legField (v : Nat) : Field := .limited 4 v fun x => 1 ≤ x && x ≤ 8
/-- A station field. -/
def stationField (v : Nat) : Field := .limited 4 v fun x => x ≤ 8

/-- Whole groups can fill `r` bytes: 2 + 4 times 1 to 4 digests each. -/
def groupsFill (r : Nat) : Bool := r % 2 == 0 && r != 2 && r != 4 && r != 8

/-- The body lengths of a kind. -/
def lengthFits (k : MsgKind) (len : Nat) : Bool :=
  match k with
  | .beacon => 4 ≤ len && len ≤ 18 && len % 2 == 0
  | .alert => len == 3
  | .hush => len == 1
  | .wake => len == 1
  | .fetch => len == 4
  | .parcel => 4 ≤ len && len ≤ 24 && groupsFill (len - 4)

/-- The summaries of a BEACON; `seen` are the legs named before. -/
def summaryFields (seen : List Nat) : List Byte → List Field
  | b0 :: b1 :: rest =>
    [.limited 4 (hiNibble b0) fun x => 1 ≤ x && x ≤ 8 && !seen.contains x,
     .limited 3 (b0.toNat / 2 % 8) fun x => x ≤ 5, .free 1,
     .limited 2 (b1.toNat / 64) fun x => x ≠ 3, .free 2, .limited 4 (loNibble b1) fun x => x ≤ 7]
      ++ summaryFields (hiNibble b0 :: seen) rest
  | _ => []

/-- One digest. -/
def digestFields : List Byte → List Field
  | b0 :: b1 :: _ =>
    [.limited 5 (b0.toNat / 8) fun x => x ≤ 17, .limited 3 (b0.toNat % 8) fun x => x ≤ 5,
     .limited 5 (b1.toNat / 8) fun x => x ≤ 17, .free 1, .limited 2 (b1.toNat % 4) fun x => x ≠ 3, .free 16]
  | _ => []

/-- The groups of a PARCEL; `fuel` bounds their number. -/
def groupFields : Nat → List Byte → List Field
  | fuel + 1, _ :: cnt :: rest =>
    let n := cnt.toNat
    [.free 8, .limited 8 n fun x => 1 ≤ x && x ≤ 4 && 4 * x ≤ rest.length && groupsFill (rest.length - 4 * x)]
      ++ (List.range n).flatMap (fun i => digestFields ((rest.drop (4 * i)).take 4)) ++ groupFields fuel (rest.drop (4 * n))
  | _, _ => []

/-- The fields of a body, whose length fits its kind, as far as R105 looks at them. -/
def bodyFields : MsgKind → List Byte → List Field
  | .beacon, b0 :: _ :: rest =>
    [.free 5, .limited 3 (b0.toNat % 8) fun x => 2 * (x + 1) == rest.length, .free 8] ++ summaryFields [] rest
  | .alert, [_, b1, _] => [.free 8, .limited 4 (hiNibble b1) fun x => x ≤ 8, .limited 4 (loNibble b1) alertCodeKnown]
  | .hush, [b0] => [legField (hiNibble b0)]
  | .wake, [b0] => [legField (hiNibble b0)]
  | .fetch, [b0, _, b2, _] =>
    [stationField (hiNibble b0), legField (loNibble b0), .free 14, .limited 2 (b2.toNat % 4) fun x => x ≠ 3]
  | .parcel, b0 :: _ :: _ :: fl :: rest =>
    let unset := fun (x : Nat) => rest.isEmpty || x == 0
    [stationField (hiNibble b0), legField (loNibble b0), .free 20,
     .limited 1 (fl.toNat / 8 % 2) unset, .free 1, .limited 1 (fl.toNat / 2 % 2) unset, .free 1]
      ++ groupFields rest.length rest
  | _, _ => []

/-! ## The bits of a message under way (R102 to R106) -/

/-- The content bits among the bits after a start mark; `n` counts the bits since the last separator (R102). -/
def contentOf : Nat → List Bool → List Bool
  | _, [] => []
  | n, b :: bs => if n = 8 then contentOf 0 bs else b :: contentOf (n + 1) bs

/-- Every separator among the bits after a start mark is recessive. -/
def separatorsRecessive : Nat → List Bool → Bool
  | _, [] => true
  | n, b :: bs => if n = 8 then b && separatorsRecessive 0 bs else separatorsRecessive (n + 1) bs

/-- The number that bits spell, most significant first. -/
def bitsNat (bs : List Bool) : Nat := bs.foldl (fun n b => 2 * n + b.toNat) 0

/-- The content field of `w` bits at `o`, bits not yet read taken as 0. -/
def fieldAt (o w : Nat) (content : List Bool) : Nat :=
  let read := (content.drop o).take w
  bitsNat read * 2 ^ (w - read.length)

/-- The content bits before the body (R103). -/
def headLength : Nat := 14

def senderOf (content : List Bool) : Nat := fieldAt 2 4 content
def kindOf? (content : List Bool) : Option MsgKind :=
  [MsgKind.beacon, .alert, .hush, .wake, .fetch, .parcel][fieldAt 6 3 content]?
def lengthOf (content : List Bool) : Nat := fieldAt 9 5 content
def bodyOf (content : List Bool) : List Byte :=
  (List.range (lengthOf content)).map fun i => byteOf (fieldAt (headLength + 8 * i) 8 content)

/-- The fields of a message as far as R105 looks at them. -/
def contentFields (content : List Bool) : List Field :=
  [.free 2, stationField (senderOf content), .limited 3 (fieldAt 6 3 content) fun x => x ≤ 5]
    ++ match kindOf? content with
      | none => []
      | some k => .limited 5 (lengthOf content) (lengthFits k) :: bodyFields k (bodyOf content)

/-- The content bits read show a fault in a field. -/
def fieldFaultShown (content : List Bool) : Bool :=
  match firstFault 0 (contentFields content) with
  | some n => n ≤ content.length
  | none => false

/-- What the bits of a message under way tell (R105, R106): it goes on; it ends in a discard, by a format error or a failed
check; it is whole, its check good. -/
inductive Ending
  | goesOn
  | discard
  | whole (k : MsgKind) (sender : Nat) (body : List Byte)
deriving DecidableEq, Repr

/-- The table of R105 and the endings of R106 for the bits read from the start mark on. -/
def endingOf (bits : List Bool) : Ending :=
  let content := contentOf 0 bits.tail
  let len := lengthOf content
  let checked := content.take (headLength + 8 * len)
  if !separatorsRecessive 0 bits.tail || fieldFaultShown content then .discard
  else if content.length < headLength then .goesOn
  else if (bits.drop (messageBits len - 2)).contains false then .discard
  else if bits.length < messageBits len then .goesOn
  else match kindOf? content with
    | some k =>
      if fieldAt (headLength + 8 * len) 16 content = (crcBits checked).toNat then
        .whole k (senderOf content) (bodyOf content)
      else .discard
    | none => .discard

end Sys2Proof.Machine
end

