-- ==== Sys2Proof/Machine/Roster.lean ====
section
/-! DEFINITION. The roster (chapter 7): taking a BEACON, ageing, and the far-summary lookup. -/

namespace Sys2Proof.Machine

/-- PLAN_DIFFERS of a BEACON's contents against this station's own (R131). -/
def State.planDiffers (s : State) (sender : Station) (b : BeaconBody) : Bool :=
  b.plan != s.straps.plan
    || (b.role == .trunk && sender != 0)
    || (b.role == .leg && sender == 0)
    || (b.role == .leg && s.straps.role == .leg && b.frontClass != s.image.frontClass)

/-- The entry for a station, if the roster holds one. -/
def State.entry? (s : State) (st : Station) : Option Entry := s.roster.find? fun e => e.station == st

/-- An entry as a BEACON leaves it (R129, R130); `heard` counts it. -/
def State.newEntry (s : State) (sender : Station) (b : BeaconBody) (heard : Nat) : Entry where
  station := sender
  role := b.role
  plan := b.plan
  frontClass := b.frontClass
  trig := b.trig
  synced := b.synced
  summaries := b.summaries
  heardAt := s.now
  fresh := true
  heard := heard
  differs := s.planDiffers sender b

/-- Put an entry in its place in the station-number order, replacing the one of its station (R127, R129, R130). -/
def putEntry (e : Entry) : List Entry → List Entry
  | [] => [e]
  | x :: xs =>
    if e.station.val < x.station.val then e :: x :: xs
    else if e.station = x.station then e :: xs
    else x :: putEntry e xs

/-! ## The far summary (R136, R137) -/

/-- The summary for a leg within an entry (R128). -/
def Entry.summary? (e : Entry) (L : Leg) : Option FarSummary :=
  (e.summaries.find? fun x => x.leg == L).map Summary.sum

/-- The table of R136 for an entry that exists or not. -/
def lookupIn (L : Leg) : Option Entry → FarResult
  | none => .absent
  | some e =>
    if !e.fresh then .stale
    else if e.differs then .planDiffers (e.summary? L)
    else match e.summary? L with
      | none => .absent
      | some f => .fresh f

/-- The far-summary lookup for context `L` (R136). -/
def State.farLookup (s : State) (L : Leg) : FarResult := lookupIn L (s.entry? (s.farStation L))

/-- After a change to the entry of `st` the lookup is handed to each context whose far station it is (R137). -/
def handStation (st : Station) (s : State) : State :=
  forLegs (fun L s => if s.farStation L = st then handFar L (s.farLookup L) s else s) s.legs s

/-- A BEACON taken (R129, R130). -/
def takeBeacon (sender : Station) (b : BeaconBody) (s : State) : State :=
  let heard := match s.entry? sender with
    | none => 1
    | some e => satInc cap16 e.heard
  handStation sender { s with roster := putEntry (s.newEntry sender b heard) s.roster }

/-- The age at which an entry becomes STALE: three beacon periods of this station (R132). -/
def State.staleAge (s : State) : Nat := 3 * s.beaconPeriod
/-- The age at which an entry is removed: twelve beacon periods (R133). -/
def State.removalAge (s : State) : Nat := 12 * s.beaconPeriod

/-- ENTRY_STALE (R132): a FRESH entry has reached the staleness limit. -/
def execEntryStale (st : Station) (s : State) : Host.Outcome State Fault Refusal :=
  match s.entry? st with
  | none => .next s
  | some e =>
    if e.fresh then
      let s := s.reach (some (e.heardAt + s.staleAge))
      .next (handStation st { s with roster := putEntry { e with fresh := false } s.roster })
    else .next s

/-- ENTRY_REMOVED (R133): an entry has reached the removal limit. -/
def execEntryRemoved (st : Station) (s : State) : Host.Outcome State Fault Refusal :=
  match s.entry? st with
  | none => .next s
  | some e =>
    let s := s.reach (some (e.heardAt + s.removalAge))
    .next (handStation st { s with
      roster := s.roster.filter fun x => x.station != st
      peerLost := satInc cap16 s.peerLost })

end Sys2Proof.Machine
end

