-- ==== Sys2Proof/Machine/PeerLine.lean ====
section
/-! DEFINITION. The peer line interface (chapter 6): attempts and their ends, reception, line modes and the beacon
schedule. -/

namespace Sys2Proof.Machine

/-! ## What is sent (R104, R109, R123) -/

/-- One summary of a BEACON (R109). -/
def Ctx.summary (L : Leg) (c : Ctx) : Summary := ⟨L, ⟨c.state, c.legGrade, c.cableOk, c.frontOk, c.claim, c.cause⟩⟩

/-- The BEACON body as the state stands (R109). -/
def State.beaconBody (s : State) : BeaconBody where
  role := s.straps.role
  plan := s.straps.plan
  frontClass := s.image.frontClass
  synced := s.line.synced
  trig := s.line.trig
  summaries := s.legs.map fun L => (s.ctx L).summary L

def kindOf : MsgBody → MsgKind
  | .beacon => .beacon
  | .alert _ _ _ => .alert
  | .sleep .hush _ => .hush
  | .sleep .wake _ => .wake
  | .fetch _ => .fetch
  | .parcel _ _ => .parcel

/-- The body bytes of an attempt that starts now: a BEACON's from the state, an ALERT's with the number after the
counter and its age (R109, R123). -/
def State.bodyBytes (s : State) : MsgBody → List Byte
  | .beacon => encodeBeacon s.beaconBody
  | .alert L c n => encodeAlert ⟨s.line.trig + 1, L, c, n⟩
  | .sleep _ L => encodeSleep L
  | .fetch f => encodeFetch f
  | .parcel body _ => body

/-- The frame of an attempt of this message (R104). -/
def State.frameOf (s : State) (cls : MsgClass) (m : Msg) : Frame :=
  mkFrame (effPriority cls m) s.station (kindOf m.body) (s.bodyBytes m.body)

/-- The conditions of R109 but for the message to offer; a command that names another idle run than the station's own is
no event of this station (log 8). -/
def State.mayStart (s : State) (idleRun : Nat) : Bool :=
  s.phase == .running && !s.outOfPlan && s.line.mode == .normal && s.line.attempt.isNone && s.line.abortMark.isNone
    && !s.line.underWay && idleRun == s.line.idleRun
    && idleBits + s.line.backoff.getD 0 ≤ s.line.idleRun

/-- ATTEMPT_START (R109): the offered message is locked and its frame filled; its start mark falls now and ends the idle
run.  The bits before it were recessive. -/
def execAttemptStart (idleRun : Nat) (s : State) : Host.Outcome State Fault Refusal :=
  if s.mayStart idleRun then
    match s.line.offered with
    | none => .next s
    | some (cls, m) =>
      let f := s.frameOf cls m
      .next (s.modLine fun l => { l with
        attempt := some ⟨cls, m.join, f, s.now + bitTime * messageBits f.body.length⟩
        backoff := none, underWay := true, startMark := some s.now, idleRun := 0, domRun := 0, heard := [] })
  else .next s

/-! ## The end of an attempt (R110 to R114, R117) -/

/-- The message of an attempt, still in its queue. -/
def Line.attempted (l : Line) (a : Attempt) : Option Msg := (l.queue a.cls).find? fun m => m.join == a.join

/-- An owed HUSH or WAKE of one leg replaces the returning one. -/
def Line.returnSleep (L : Leg) (l : Line) : Line :=
  match l.owedSleep.get L with
  | none => l
  | some k => { l.replaceMsg .status (isSleep L) (.sleep k L) with owedSleep := l.owedSleep.set L.val none L.isLt }

/-- The attempt ended in a loss or a failure: an owed message replaces the returning one, and a returning BEACON simply
stands (R117). -/
def Line.settleReturned (l : Line) : Line :=
  let l := allLegs.foldl (fun l L => l.returnSleep L) { l with owedBeacon := none }
  match l.owedFetch with
  | none => l
  | some f => { l.replaceMsg .bulk isFetch (.fetch f) with owedFetch := none }

/-- An owed HUSH or WAKE of one leg joins as a new message, the one before it being gone. -/
def Line.joinSleep (L : Leg) (l : Line) : Line :=
  match l.owedSleep.get L with
  | none => l
  | some k => ({ l with owedSleep := l.owedSleep.set L.val none L.isLt }).putSleep k L

/-- The message of the attempt has left its queue: what was owed joins, and a held FETCH is admitted (R117, R118). -/
def settleLeft (s : State) : State :=
  let s := s.modLine fun l => allLegs.foldl (fun l L => l.joinSleep L) l
  let s := match s.line.owedFetch with
    | none => s
    | some f => (s.modLine fun l => { l with owedFetch := none }).handFetch f
  let owed := s.line.owedBeacon
  let s := s.modLine fun l => { l with owedBeacon := none }
  let s := match owed with
    | none => s
    | some .scheduled => s.queueBeacon .scheduled
    | some .change => s.changeNotice
  s.modLine Line.admitHeld

/-- ARBITRATION_LOST (R110): the message is unlocked and kept, and the winner's message is read.  The bit last read is the
dominant one that lost. -/
def execArbitrationLost (s : State) : Host.Outcome State Fault Refusal :=
  match s.line.attempt with
  | none => .next s
  | some a => .next (s.modLine fun l => { l.settleReturned with
      attempt := none, underWay := true, domRun := a.frame.domRunAtDifference (a.bitsRead s.now)
      heard := a.frame.wire.take (a.bitsRead s.now - 1) ++ [false] })

/-- Entry to QUIET (R114). -/
def enterQuiet (s : State) : State :=
  (s.modLine fun l => { l with
    mode := if l.mode = .stuck then .stuck else .quiet
    consecFails := 0
    quietTimer := s.start (msec 250)
    quietEntries := satInc cap16 l.quietEntries }).setCause .lineFault

/-- The failures a message may have before it is discarded (R113). -/
def messageFailLimit : Nat := 16
/-- The consecutive failures that lead to QUIET (R113). -/
def quietFailLimit : Nat := 32

/-- A discarded message is reported to its block (R113, R180, R192). -/
def reportDiscard (m : Msg) (s : State) : State :=
  match m.body with
  | .alert _ _ _ => s.unshareLinked m.join
  | .fetch f => fetchDiscarded f s
  | .beacon | .sleep _ _ | .parcel _ _ => s

/-- The message of a failed attempt: one failure more, and discarded at the sixteenth (R113). -/
def failMessage (a : Attempt) (s : State) : State :=
  match s.line.attempted a with
  | none => s.modLine Line.settleReturned
  | some m =>
    if m.fails + 1 < messageFailLimit then
      s.modLine fun l => (l.modQueue a.cls (List.map fun x =>
        if x.join = a.join then { x with fails := x.fails + 1 } else x)).settleReturned
    else
      let s := s.modLine fun l =>
        { l.removeMsg a.cls a.join with retryDiscards := satInc cap16 l.retryDiscards }
      reportDiscard m (settleLeft s)

/-- A failed attempt (R111 to R113): unlocked, counted, with the backoff chosen; `mark` where an abort mark follows.  The
bit last read is the one that differs. -/
def failAttempt (a : Attempt) (backoff : Fin 16) (mark : Bool) (s : State) : State :=
  let s := s.modLine fun l => { l with
    attempt := none, underWay := false, idleRun := 0, heard := []
    domRun := a.frame.domRunAtDifference (a.bitsRead s.now)
    backoff := some (backoff.val + 1)
    abortMark := if mark then s.start (12 * bitTime) else none
    failedAttempts := satInc cap16 l.failedAttempts
    consecFails := l.consecFails + 1 }
  let s := failMessage a s
  if quietFailLimit ≤ s.line.consecFails then enterQuiet s else s

/-- ATTEMPT_ABORT (R111). -/
def execAttemptAbort (backoff : Fin 16) (s : State) : Host.Outcome State Fault Refusal :=
  match s.line.attempt with
  | none => .next s
  | some a => .next (failAttempt a backoff true s)

/-- ABORT_MARK_END (R111): the line is released after 12 dominant bit times, of which those not yet counted join the
dominant run (R115). -/
def execAbortMarkEnd (s : State) : Host.Outcome State Fault Refusal :=
  match s.line.abortMark with
  | none => .next s
  | some d => .next ((s.reach (some d)).modLine fun l =>
      { l with abortMark := none, idleRun := 0, domRun := min 255 (l.domRun + (d - s.now) / bitTime) })

/-- A completed message: counted, and one wait for each queued message (R106, R119). -/
def completed (s : State) : State :=
  s.modLine fun l => { l.countWaits with
    received := satInc cap16 l.received, underWay := false, idleRun := 0, domRun := 0, heard := [] }

/-- An own message completed (R108, R112): what its kind does at the sender.  A spacing timer that runs when a BEACON
completes runs on until 1 ms after the new mark (R122, log 34). -/
def ownCompletion (a : Attempt) (m : Msg) (s : State) : State :=
  match m.body with
  | .alert _ _ _ =>
    let n := a.frame.body.headD 0
    (s.modLine fun l => { l with trig := n, synced := true }).numberLinked m.join n
  | .beacon => s.modLine fun l => { l with
      spacingMark := some s.now, spacingTimer := l.spacingTimer.map fun _ => s.now + beaconSpacing }
  | .fetch f => fetchSent f s
  | .parcel _ (some (i, order)) => s.releaseCapture i order
  | .parcel _ none => s
  | .sleep _ _ => s

/-- The attempt succeeds (R112).  What joins at this departure, a FETCH held at the entry among it, joins after the
completion is counted, with waits 0 (the model's choice, log 16). -/
def succeedAttempt (a : Attempt) (s : State) : State :=
  let m? := s.line.attempted a
  let s := s.modLine fun l => { l.removeMsg a.cls a.join with
    attempt := none, consecFails := 0, sent := satInc cap16 l.sent }
  let s := completed s
  let s := match m? with
    | none => s
    | some m => ownCompletion a m s
  settleLeft s

/-- The moment the attempt's end mark is read: at its last bit, or at the first of its two bits where that one is
dominant (R112). -/
def endMarkRead (ends : Nat) : EndMark → Nat
  | .recessive => ends
  | .dominant second _ => if second then ends else ends - bitTime

/-- ATTEMPT_END (R112): success, or a failed attempt without an abort mark. -/
def execAttemptEnd (mark : EndMark) (s : State) : Host.Outcome State Fault Refusal :=
  match s.line.attempt with
  | none => .next s
  | some a =>
    let s := s.reach (some (endMarkRead a.ends mark))
    match mark with
    | .recessive => .next (succeedAttempt a s)
    | .dominant _ backoff => .next (failAttempt a backoff false s)

/-! ## Reception (R105 to R108) -/

/-- The station reads the line and drives nothing itself. -/
def State.hears (s : State) : Bool := s.phase == .running && s.line.attempt.isNone && s.line.abortMark.isNone

/-- The message of these bits is the one under way, or one whose start mark falls now, which the station takes on an idle
line only (R101). -/
def State.takes (wire : List Bool) (s : State) : Bool :=
  s.hears && s.line.mode != .stuck
    && (if s.line.underWay then s.line.heard.isPrefixOf wire else idleBits ≤ s.line.idleRun)

/-- The start mark of the message a receiver reads: that of the message under way, or one that falls now. -/
def State.messageStart (s : State) : Nat := if s.line.underWay then s.line.startMark.getD s.now else s.now

/-- A receiver has read a message with a body of `len` bytes to its end mark (R101, R102): no bit of it counts in the
idle run, and the clock stands at least at its end (log 3). -/
def readMessage (len : Nat) (s : State) : State :=
  (s.reach (some (s.messageStart + bitTime * messageBits len))).modLine fun l =>
    { l with startMark := some s.messageStart }

/-- The message under way ends in a discard at a receiver (R106). -/
def discardMessage (s : State) : State :=
  s.modLine fun l => { l with
    lineErrors := satInc cap16 l.lineErrors, underWay := false, idleRun := 0, heard := [] }

/-- A valid completion with this station's number that it did not send is a clash (R108). -/
def noteClash (sender : Station) (s : State) : State :=
  if sender = s.station then
    (s.modLine fun l => { l with clash := true, clashes := satInc cap16 l.clashes }).setCause .clash
  else s

/-- A BEACON at the trigger counter of an unsynced station (R124). -/
def syncToBeacon (b : BeaconBody) (s : State) : State :=
  if s.line.synced then s else s.modLine fun l => { l with trig := b.trig, synced := true }

/-- A BEACON handed on (R107): to the trigger counter, and to the roster unless it carries the own number. -/
def handBeacon (sender : Station) (b : BeaconBody) (s : State) : State :=
  let s := syncToBeacon b s
  if sender = s.station then s else takeBeacon sender b s

/-- An ALERT at the trigger counter (R124). -/
def followAlert (n : Byte) (s : State) : State :=
  s.modLine fun l => { l with
    trig := n, synced := true
    slips := if l.synced ∧ n ≠ l.trig + 1 then satInc cap16 l.slips else l.slips }

/-- An ALERT handed on (R107, R171): the counter follows it, and captures open as the windows direct. -/
def handAlert (sender : Station) (a : AlertBody) (s : State) : State :=
  let s := followAlert a.trig s
  let t := s.interval - BitVec.ofNat 16 (a.age + s.image.lineDelay)
  let act := windowAction s.image (alertKey sender a.leg a.cause)
  forLegs (openCapture (some a.trig) sender a.cause t false false none) (actionLegs s act a.leg) s

/-- Whether a HUSH or WAKE comes from the far station of the context it names (R153, R155). -/
def State.fromFarEnd (s : State) (sender : Station) (L : Leg) : Bool := (s.ctx? L).isSome && s.farStation L == sender

/-- The block that takes a valid completion of a kind, with its sender (R107); none where the body has a format error. -/
def handOn (k : MsgKind) (body : List Byte) : Option (Station → State → State) :=
  match k with
  | .beacon => (decodeBeacon body).map fun b st => handBeacon st b
  | .alert => (decodeAlert body).map fun a st => handAlert st a
  | .hush => (decodeSleep body).map fun L st s => if s.fromFarEnd st L then hushLeg L s else s
  | .wake => (decodeSleep body).map fun L st s => if s.fromFarEnd st L then wakeLeg L s else s
  | .fetch => (decodeFetch body).map fun f st s => if f.target = s.station ∧ !s.outOfPlan then serveFetch st f s else s
  | .parcel => (decodeParcel body).map fun p st s => if p.requester = s.station then takeParcel st p s else s

/-- A message of another station has been read to its end mark, its check good: free of format errors it is a valid completion
and handed on (R105 to R108). -/
def completeMessage (k : MsgKind) (sender : Nat) (body : List Byte) (s : State) : State :=
  match stationOfCode sender, handOn k body with
  | some st, some hand => hand st (noteClash st (completed s))
  | _, _ => discardMessage s

/-- The message under way ends where the bits read say so (R105, R106). -/
def endMessage (s : State) : State :=
  if s.line.underWay then
    match endingOf s.line.heard with
    | .goesOn => s
    | .discard => discardMessage s
    | .whole k sender body => completeMessage k sender body s
  else s

/-- A station that drives nothing reads one bit, which takes its bit time (R101, R105, R106, R115). -/
def State.hearBit (level : Bool) (s : State) : State :=
  if s.hears then endMessage { s with now := s.now + bitTime, line := s.line.hearBit s.now level } else s

/-- Bits read one after the other, the first now. -/
def State.hear (levels : List Bool) (s : State) : State := levels.foldl (fun s b => s.hearBit b) s

/-- MESSAGE_DISCARDED (R105, R106): the levels read from now on.  They tell where a message under way ends; one that shows no
end in them goes on (log 33). -/
def execMessageDiscarded (s : State) (levels : List Bool := []) : Host.Outcome State Fault Refusal := .next (s.hear levels)

/-- A whole message of another station.  Free of format errors, at a station that takes it, it is completed at its end mark;
elsewhere the station reads its bits one by one, and a format error ends it at the bit that shows it (R101, R105 to R108). -/
def receive (k : MsgKind) (priority : Fin 4) (sender : Nat) (body : List Byte) (s : State) : State :=
  let wire := wireOf priority.val sender k body
  if s.takes wire then
    if bodyWellFormed k sender body then completeMessage k sender body (readMessage body.length s)
    else s.hear (if s.line.underWay then wire.drop s.line.heard.length else wire)
  else s.hear wire

/-- BEACON_RECEIVED (R107, R124, R129, R130, R137). -/
def execBeaconReceived (sender : Nat) (body : List Byte) (s : State) (priority : Fin 4 := 0) :
    Host.Outcome State Fault Refusal := .next (receive .beacon priority sender body s)

/-- ALERT_RECEIVED (R124, R171 to R178). -/
def execAlertReceived (sender : Nat) (body : List Byte) (s : State) (priority : Fin 4 := 0) :
    Host.Outcome State Fault Refusal := .next (receive .alert priority sender body s)

/-- HUSH_RECEIVED (R107, R153). -/
def execHushReceived (sender : Nat) (body : List Byte) (s : State) (priority : Fin 4 := 0) :
    Host.Outcome State Fault Refusal := .next (receive .hush priority sender body s)

/-- WAKE_RECEIVED (R107, R155). -/
def execWakeReceived (sender : Nat) (body : List Byte) (s : State) (priority : Fin 4 := 0) :
    Host.Outcome State Fault Refusal := .next (receive .wake priority sender body s)

/-- FETCH_RECEIVED (R107, R118, R189). -/
def execFetchReceived (sender : Nat) (body : List Byte) (s : State) (priority : Fin 4 := 0) :
    Host.Outcome State Fault Refusal := .next (receive .fetch priority sender body s)

/-- PARCEL_RECEIVED (R107, R193). -/
def execParcelReceived (sender : Nat) (body : List Byte) (s : State) (priority : Fin 4 := 0) :
    Host.Outcome State Fault Refusal := .next (receive .parcel priority sender body s)

/-! ## Line modes (R114, R115) -/

/-- QUIET_TIMER_EXPIRY (R114): NORMAL, or STUCK while stuck. -/
def execQuietTimerExpiry (s : State) : Host.Outcome State Fault Refusal :=
  if s.line.quietTimer = none then .next s
  else .next ((s.reach s.line.quietTimer).modLine fun l =>
    { l with quietTimer := none, mode := if l.mode = .stuck then .stuck else .normal })

/-- STUCK_ENTRY (R115): the dominant run exceeds 64.  Any attempt of its own has aborted by then; a message still under
way ends as a discard (R106). -/
def execStuckEntry (s : State) : Host.Outcome State Fault Refusal :=
  if s.phase = .running ∧ s.line.mode ≠ .stuck ∧ s.line.attempt = none then
    .next (((if s.line.underWay then discardMessage s else s).modLine fun l => { l with
      mode := .stuck, idleRun := 0, domRun := max l.domRun 65
      stuckEntries := satInc cap16 l.stuckEntries }).setCause .lineFault)
  else .next s

/-- STUCK_EXIT (R115): the idle run reaches 8. -/
def execStuckExit (s : State) : Host.Outcome State Fault Refusal :=
  if s.line.mode = .stuck then
    .next (s.modLine fun l => { l with
      mode := if l.quietTimer.isSome then .quiet else .normal, idleRun := 8, domRun := 0 })
  else .next s

/-! ## Beacon schedule (R121, R122) -/

/-- The idle run after which the first BEACON is queued (R121). -/
def firstBeaconRun : Nat := 32

/-- FIRST_BEACON (R121): the idle run of an in-plan station, as the bits it has read make it, first reaches 32.  Before
that the command is no event of this station (log 2). -/
def execFirstBeacon (s : State) : Host.Outcome State Fault Refusal :=
  if s.phase = .running ∧ !s.outOfPlan ∧ !s.line.beaconStarted ∧ firstBeaconRun ≤ s.line.idleRun then
    .next ((s.modLine fun l => { l with
      beaconStarted := true, beaconTimer := s.start s.beaconPeriod }).queueBeacon .scheduled)
  else .next s

/-- BEACON_TIMER_EXPIRY (R121): a scheduled BEACON, and the timer runs again. -/
def execBeaconTimerExpiry (s : State) : Host.Outcome State Fault Refusal :=
  if s.line.beaconTimer = none then .next s
  else
    let s := s.reach s.line.beaconTimer
    .next ((s.modLine fun l => { l with beaconTimer := l.beaconTimer.map (· + s.beaconPeriod) }).queueBeacon .scheduled)

/-- SPACING_TIMER_EXPIRY (R122): a BEACON is queued unless one is.  One in an attempt is queued too, and nothing is added
(the model's choice, log 34). -/
def execSpacingTimerExpiry (s : State) : Host.Outcome State Fault Refusal :=
  if s.line.spacingTimer = none then .next s
  else
    let s := (s.reach s.line.spacingTimer).modLine fun l => { l with spacingTimer := none }
    if (s.line.findMsg .status isBeacon).isSome then .next s else .next (s.queueBeacon .change)

end Sys2Proof.Machine
end

