-- ==== Sys2Proof/Machine/Image.lean ====
section
/-! DEFINITION. The image loader: accepting the cable image (R5), the built-in default (R6), range clamps (R7), tap sums
(R8), the relations between fields (R9 to R12), the adjustment set (R13), and cable-side positions (R18). -/

namespace Sys2Proof.Machine

/-! ## The adjustment set (R13) -/

/-- The nine kinds in the order of R13. -/
inductive AdjustKind
  | rangeClamp | tapSum | frontClass | ftRaised | wtLowered | hyLowered | windowLimit | windowDepth | depthReduced
deriving DecidableEq, Repr

/-- The bit of a kind: bit i for the i-th kind (R197). -/
def AdjustKind.mask : AdjustKind → BitVec 9
  | .rangeClamp => 0x001
  | .tapSum => 0x002
  | .frontClass => 0x004
  | .ftRaised => 0x008
  | .wtLowered => 0x010
  | .hyLowered => 0x020
  | .windowLimit => 0x040
  | .windowDepth => 0x080
  | .depthReduced => 0x100

/-- A kind joins the set where its adjustment was made. -/
def adjustIf (b : Bool) (k : AdjustKind) (a : BitVec 9) : BitVec 9 := if b then a ||| k.mask else a

/-! ## Reading (R4, R5) -/

/-- Byte `i` of the one-time memory. -/
def imgByte (bs : List Byte) (i : Nat) : Nat := (bs.getD i 0).toNat

/-- A 16-bit field, most significant byte first. -/
def imgWord (bs : List Byte) (i : Nat) : Nat := imgByte bs i * 256 + imgByte bs (i + 1)

/-- The image check over bytes 0 to 107 (R5). -/
def imageCheck (bs : List Byte) : BitVec 16 := crcBits ((bs.take 108).flatMap byteBits)

/-- The three conditions of R5, given that the memory answered with these bytes. -/
def imageAccepted (bs : List Byte) : Bool :=
  bs.length == 110 && (imageCheck bs).toNat == imgWord bs 108 && imgByte bs 0 == 1

/-! ## Range clamps (R7) -/

/-- A value held to a range. -/
def clampTo (lo hi n : Nat) : Nat := max lo (min n hi)

/-- A value kept within a range and replaced outside it. -/
def orElseIn (lo hi other n : Nat) : Nat := if lo ≤ n ∧ n ≤ hi then n else other

/-- A tap triple from three bytes, each tap in its range (R7). -/
def clampTaps (bs : List Byte) (i : Nat) : Triple Nat :=
  ⟨min (imgByte bs i) 12, clampTo 20 44 (imgByte bs (i + 1)), min (imgByte bs (i + 2)) 16⟩

/-- Whether a stored triple lies outside its ranges. -/
def tapsClamped (bs : List Byte) (i : Nat) : Bool :=
  clampTaps bs i != ⟨imgByte bs i, imgByte bs (i + 1), imgByte bs (i + 2)⟩

/-- The eight triples from byte `i`. -/
def clampTriples (bs : List Byte) (i : Nat) : Vector (Triple Nat) 8 := Vector.ofFn fun k => clampTaps bs (i + 3 * k.val)

def actionOfCode : Nat → WindowAction
  | 0 => .ignore
  | 2 => .captureAll
  | _ => .capture

/-- One alert window from four bytes; action code 3 becomes CAPTURE (R4, R7). -/
def readWindow (bs : List Byte) (i : Nat) : AlertWindow where
  enable := (imgByte bs i).testBit 0
  action := actionOfCode (imgByte bs i / 2 % 4)
  base := BitVec.ofNat 12 (imgByte bs (i + 1) * 16 + imgByte bs (i + 2) / 16)
  mask := BitVec.ofNat 12 (imgByte bs (i + 2) % 16 * 256 + imgByte bs (i + 3))

/-- Bits 3 to 7 of a window's byte 0 set, or action code 3 (R7). -/
def windowClamped (bs : List Byte) (i : Nat) : Bool := 8 ≤ imgByte bs i || imgByte bs i / 2 % 4 == 3

def indicatorOfCode : Nat → IndicatorMode
  | 0 => .off
  | 1 => .on
  | 3 => .anyUp
  | 4 => .good
  | 5 => .fault
  | 6 => .attention
  | _ => .up

/-- The ring depth of a code: 16, 32, 64 (R4). -/
def depthOfCode : Nat → Nat
  | 0 => 16
  | 1 => 32
  | _ => 64

/-- The fields of an accepted image after the range clamps (R7). -/
def clampImage (bs : List Byte) : Image where
  frontClass  := orElseIn 1 2 2 (imgByte bs 1)
  frontInvert := bs.getD 2 0
  cableInvert := bs.getD 3 0
  reverse     := imgByte bs 4 == 1
  cableTaps   := clampTriples bs 5
  frontTaps   := clampTriples bs 29
  k           := min (imgByte bs 53) 7
  depth       := depthOfCode (imgByte bs 54)
  capB        := min (imgByte bs 55) 24
  capA        := min (imgByte bs 56) 24
  lineDelay   := min (imgByte bs 57) 3
  beaconCode  := min (imgByte bs 58) 3
  penalty     := Vector.ofFn fun t => imgByte bs (59 + t.val)
  decay       := imgByte bs 77
  warn        := clampTo 1 4095 (imgWord bs 78)
  fail        := clampTo 1 4095 (imgWord bs 80)
  hyst        := clampTo 1 4095 (imgWord bs 82)
  markTail    := min (imgByte bs 84) 17
  strainFault := imgByte bs 85 == 1
  originMask  := BitVec.ofNat 4 (imgByte bs 86)
  windows     := Vector.ofFn fun w => readWindow bs (87 + 4 * w.val)
  dormCode    := min (imgByte bs 103) 3
  soloCode    := min (imgByte bs 104) 3
  indicator   := indicatorOfCode (imgByte bs 105)
  checkLimit  := imgWord bs 106

/-- Whether some field's stored value lies outside its range (R7). -/
def anyClamped (bs : List Byte) : Bool :=
  orElseIn 1 2 2 (imgByte bs 1) != imgByte bs 1
    || 1 < imgByte bs 4
    || (List.range 16).any (fun k => tapsClamped bs (5 + 3 * k))
    || 7 < imgByte bs 53 || 2 < imgByte bs 54 || 24 < imgByte bs 55 || 24 < imgByte bs 56
    || 3 < imgByte bs 57 || 3 < imgByte bs 58
    || clampTo 1 4095 (imgWord bs 78) != imgWord bs 78
    || clampTo 1 4095 (imgWord bs 80) != imgWord bs 80
    || clampTo 1 4095 (imgWord bs 82) != imgWord bs 82
    || 17 < imgByte bs 84 || 1 < imgByte bs 85 || 15 < imgByte bs 86
    || (List.range 4).any (fun w => windowClamped bs (87 + 4 * w))
    || 3 < imgByte bs 103 || 3 < imgByte bs 104 || 6 < imgByte bs 105

/-! ## Tap sums and relations (R8 to R12) -/

/-- Post is lowered until the sum is at most 56 (R8). -/
def holdSum (t : Triple Nat) : Triple Nat := { t with post := min t.post (56 - t.pre - t.main) }

/-- A load in the making: the image, its slot count and the adjustment set. -/
structure Load where
  image  : Image
  slots  : Nat
  adjust : BitVec 9
deriving DecidableEq, Repr

/-- R8, for all sixteen triples. -/
def sumStep (x : Load) : Load :=
  let c := x.image.cableTaps.map holdSum
  let f := x.image.frontTaps.map holdSum
  { x with
    image := { x.image with cableTaps := c, frontTaps := f }
    adjust := adjustIf (c != x.image.cableTaps || f != x.image.frontTaps) .tapSum x.adjust }

/-- R9: class 2 at a trunk and at a leg chip of plan 1X1. -/
def classStep (st : Straps) (x : Load) : Load :=
  if x.image.frontClass = 1 ∧ (st.role = .trunk ∨ st.plan = .p1x1) then
    { x with image := { x.image with frontClass := 2 }, adjust := adjustIf true .frontClass x.adjust }
  else x

/-- R10: Hy ≤ Wt < Ft, in three steps. -/
def thresholdStep (x : Load) : Load :=
  let ft := if x.image.fail = 1 then 2 else x.image.fail
  let wt := if ft ≤ x.image.warn then ft - 1 else x.image.warn
  let hy := min x.image.hyst wt
  { x with
    image := { x.image with fail := ft, warn := wt, hyst := hy }
    adjust := adjustIf (hy != x.image.hyst) .hyLowered (adjustIf (wt != x.image.warn) .wtLowered
      (adjustIf (ft != x.image.fail) .ftRaised x.adjust)) }

/-- One limit of R11: A and then B are lowered until B + A + 1 is at most `lim`. -/
def windowStep (lim : Nat) (k : AdjustKind) (x : Load) : Load :=
  let a := min x.image.capA (lim - 1 - x.image.capB)
  let b := min x.image.capB (lim - 1 - a)
  { x with
    image := { x.image with capA := a, capB := b }
    adjust := adjustIf (lim < x.image.capB + x.image.capA + 1) k x.adjust }

/-- The slot count of a depth (R12). -/
def slotsFor (contexts depth : Nat) : Nat := min 8 ((512 - contexts * depth) / 32)

/-- One step of R12: while no slot remains the depth is lowered and the window held against it again. -/
def depthStep (contexts : Nat) (x : Load) : Load :=
  if slotsFor contexts x.image.depth = 0 ∧ 16 < x.image.depth then
    windowStep (x.image.depth / 2) .windowDepth
      { x with image := { x.image with depth := x.image.depth / 2 }, adjust := adjustIf true .depthReduced x.adjust }
  else x

/-- R12: from 64 to 32 and from 32 to 16 are all the steps there are. -/
def memoryStep (contexts : Nat) (x : Load) : Load :=
  let y := depthStep contexts (depthStep contexts x)
  { y with slots := slotsFor contexts y.image.depth }

/-- An accepted image taken through R7 to R12. -/
def adjustImage (st : Straps) (bs : List Byte) : Load :=
  let x : Load := ⟨clampImage bs, 0, adjustIf (anyClamped bs) .rangeClamp 0⟩
  let x := thresholdStep (classStep st (sumStep x))
  let x := windowStep x.image.depth .windowDepth (windowStep 32 .windowLimit x)
  memoryStep (contextCount st) x

/-! ## The built-in default (R4, R6) -/

/-- The built-in default image for the strapped role and plan: the default column, but for the ring depth of a trunk
1X8 (R6). -/
def Image.builtIn (st : Straps) : Image :=
  { Image.standard with depth := if st.role = .trunk ∧ st.plan = .p1x8 then 32 else 64 }

/-- The loaded image, its slot count, the adjustment set, and whether the image was defaulted (R5, R6, R12, R13).
`mem` is none where the one-time memory left a read unanswered. -/
def loadImage (st : Straps) (mem : Option (List Byte)) : Load × Bool :=
  let dflt : Load := ⟨Image.builtIn st, slotsFor (contextCount st) (Image.builtIn st).depth, 0⟩
  match mem with
  | none => (dflt, true)
  | some bs => if imageAccepted bs then (adjustImage st bs, false) else (dflt, true)

/-! ## Cable-side positions (R18) -/

/-- The number of cable lanes the station uses. -/
def cableLanesUsed (st : Straps) : Nat :=
  match st.role with
  | .trunk => 8
  | .leg => lanesPerLeg st.plan

/-- The cable-side position of logical cable lane CLj; none for an unused lane under reversal, which R18 does not place. -/
def State.position (s : State) (j : CLane) : Option Nat :=
  let p := cableLanesUsed s.straps
  if !s.image.reverse then some j.val else if j.val < p then some (p - 1 - j.val) else none

end Sys2Proof.Machine
end

