-- ==== Sys2Proof/Machine/Power.lean ====
section
/-! DEFINITION. Power-on, the end of reset and the end of the image load (R1, R3, R14, R19). -/

namespace Sys2Proof.Machine

/-- POWER_ON (R19): a rise of supply or an assertion of the reset pin discards all state and abandons a load under way. -/
def execPowerOn (s : State) : Host.Outcome State Fault Refusal := .next { State.reset with pending := s.pending }

/-- END_OF_RESET (R1, R19): the straps are latched and the load starts; at any other time there is no reset to end. -/
def execEndOfReset (st : Straps) (s : State) : Host.Outcome State Fault Refusal :=
  if s.phase = .inReset then .next { s with straps := st, phase := .loading } else .next s

/-- A leg context at the end of the load (R3, R141); `n` is the number of its cable lanes. -/
def newCtx (outOfPlan : Bool) (dormancy : Timer) (n : Nat) : Ctx where
  state := if outOfPlan then .faulted else .rising
  cause := if outOfPlan then .planMismatch else .none
  held := outOfPlan
  patternCounts := List.replicate n 0
  dormancy := if outOfPlan then none else dormancy

/-- A used lane at the end of the load: in SEEK, its runs started where its signal is present (R22, R23, R38). -/
def newLane (now : Nat) (raw : Bool) : LaneUnit where
  rx := .seek
  raw := raw
  presentRun := if raw then some (now + msec 1) else none
  seekRun := if raw then some (now + msec 1) else none

/-- The part once the image is loaded, before any block has acted (R14, R19, R41, R79, R98). -/
def handOver (x : Load) (defaulted : Bool) (signals : BitVec 16) (s : State) : State :=
  let s := { s with
    phase := .running
    image := x.image
    slotCount := x.slots
    adjust := x.adjust
    imageDefaulted := defaulted
    imageAdjusted := x.adjust != 0 }
  let s := { s with
    lanes := map16 (fun l u => if (s.owner l).isSome then newLane s.now (signals.getLsbD l.val) else u) s.lanes
    tuners := map8 (fun k (t : Tuner) => { t with taps := s.image.frontTaps.get k }) s.tuners
    ctxs := map9 (fun L _ =>
      if holdsLeg s.straps L then
        some (newCtx s.outOfPlan (s.start s.dormancyDelay) (lanesPerLeg s.straps.plan))
      else none) s.ctxs
    interval := 0
    intervalEnd := s.start s.intervalLen }
  forLegs State.evalTx s.legs s

/-- IMAGE_LOAD_END (R19). -/
def execImageLoadEnd (mem : Option (List Byte)) (signals : BitVec 16) (s : State) :
    Host.Outcome State Fault Refusal :=
  if s.phase = .loading then
    let r := loadImage s.straps mem
    let s := handOver r.1 r.2 signals s
    .next (if s.imageDefaulted || s.imageAdjusted then s.setCause .imageNotice else s)
  else .next s

end Sys2Proof.Machine
end

