-- ==== Sys2Proof/Machine/Receivers.lean ====
section
/-! DEFINITION. The meanings of the receivers' events (R21 to R29) and of a pending transmitter mode (R32). -/

namespace Sys2Proof.Machine

/-- The 1 ms of continuous signal (R22, R23). -/
def presentTime : Nat := msec 1
/-- The 10 us of continuous absence (R22). -/
def absentTime : Nat := usec 10
/-- The ACQUIRE timer (R24). -/
def acquireTime : Nat := msec 20
/-- The ADAPT timer (R25). -/
def adaptTime : Nat := msec 100

/-- Entry to SEEK (R23): timers stop, and the run starts if the signal is present. -/
def State.toSeek (s : State) (u : LaneUnit) : LaneUnit :=
  { u with
    rx := .seek, acquireTimer := none, adaptTimer := none
    seekRun := if u.raw then s.start presentTime else none }

/-- Entry to ACQUIRE with a fresh timer (R24). -/
def State.toAcquire (s : State) (u : LaneUnit) : LaneUnit :=
  { u with rx := .acquire, seekRun := none, adaptTimer := none, acquireTimer := s.start acquireTime }

/-- The present flag is set and front_present follows (R22, R29). -/
def setPresent (l : Lane) (s : State) : State :=
  match s.owner l with
  | none => s
  | some L =>
    let was := s.frontPresent L
    presenceChanged L was (s.modLane l fun u => { u with present := true, presentRun := none })

/-- SIGNAL_DETECT_CHANGE (R22, R23): the runs of 1 ms and 10 us start afresh or are cancelled.  A receiver in OFF
ignores it (R21). -/
def execSignalDetectChange (l : Lane) (present : Bool) (s : State) : Host.Outcome State Fault Refusal :=
  let u := s.lane l
  if u.rx = .off ∨ u.raw = present then .next s
  else if present then
    .next (s.modLane l fun u => { u with
      raw := true, absentRun := none, presentRun := s.start presentTime
      seekRun := if u.rx = .seek then s.start presentTime else none })
  else
    .next (s.modLane l fun u => { u with
      raw := false, presentRun := none, seekRun := none, absentRun := s.start absentTime })

/-- PRESENT_FLAG_SET (R22, R29): the 1 ms run ends. -/
def execPresentFlagSet (l : Lane) (s : State) : Host.Outcome State Fault Refusal :=
  let u := s.lane l
  if u.presentRun = none then .next s
  else
    let s := s.reach u.presentRun
    if u.present then .next (s.modLane l fun u => { u with presentRun := none })
    else .next (setPresent l s)

/-- SEEK_RUN_END (R23, R24): to ACQUIRE.  The signal has been present for 1 ms, so the present flag stands too (R22,
log 11). -/
def execSeekRunEnd (l : Lane) (s : State) : Host.Outcome State Fault Refusal :=
  let u := s.lane l
  if u.rx ≠ .seek ∨ u.seekRun = none then .next s
  else
    let s := s.reach u.seekRun
    let s := if u.present then s else setPresent l s
    .next (s.modLane l s.toAcquire)

/-- SIGNAL_ABSENT (R22, R23, R26): after 10 us of absence the present flag clears and a receiver in ACQUIRE, ADAPT or
LOCKED goes to SEEK. -/
def execSignalAbsent (l : Lane) (s : State) : Host.Outcome State Fault Refusal :=
  let u := s.lane l
  if u.absentRun = none then .next s
  else
    let s := s.reach u.absentRun
    let was := fun L => s.frontPresent L
    let clear := fun (u : LaneUnit) => { u with
      absentRun := none, present := false
      signalLosses := if u.present then satInc cap16 u.signalLosses else u.signalLosses }
    let s := match u.rx with
      | .off | .seek => s.modLane l clear
      | .acquire | .adapt => s.modLane l fun u => s.toSeek (clear u)
      | .locked =>
        receiverLeftLocked l true (s.modLane l fun u =>
          { s.toSeek (clear u) with lockLosses := satInc cap16 u.lockLosses })
    let s := match s.owner l with
      | none => s
      | some L => presenceChanged L (was L) s
    .next (if u.rx = .locked then laneChanged l s else s)

/-- CLOCK_LOCK (R24): ACQUIRE to ADAPT. -/
def execClockLock (l : Lane) (s : State) : Host.Outcome State Fault Refusal :=
  if (s.lane l).rx = .acquire then
    .next (s.modLane l fun u => { u with rx := .adapt, acquireTimer := none, adaptTimer := s.start adaptTime })
  else .next s

/-- ACQUIRE_TIMEOUT (R24): back to SEEK, counted. -/
def execAcquireTimeout (l : Lane) (s : State) : Host.Outcome State Fault Refusal :=
  let u := s.lane l
  if u.rx = .acquire ∧ u.acquireTimer ≠ none then
    let s := s.reach u.acquireTimer
    .next (s.modLane l fun u => { s.toSeek u with acquireTimeouts := satInc cap16 u.acquireTimeouts })
  else .next s

/-- ADAPTATION_COMPLETE (R25, R26): ADAPT to LOCKED; a front lane's engine may go to TUNING (R41). -/
def execAdaptationComplete (l : Lane) (s : State) : Host.Outcome State Fault Refusal :=
  if (s.lane l).rx = .adapt then
    let s := s.modLane l fun u => { u with
      rx := .locked, adaptTimer := none, lockEntries := satInc cap16 u.lockEntries }
    .next (laneChanged l (if isFront l then s.tryTuning (laneNo l) else s))
  else .next s

/-- ADAPT_TIMEOUT (R25): back to SEEK, counted. -/
def execAdaptTimeout (l : Lane) (s : State) : Host.Outcome State Fault Refusal :=
  let u := s.lane l
  if u.rx = .adapt ∧ u.adaptTimer ≠ none then
    let s := s.reach u.adaptTimer
    .next (s.modLane l fun u => { s.toSeek u with adaptTimeouts := satInc cap16 u.adaptTimeouts })
  else .next s

/-- CLOCK_LOCK_LOST (R25, R26): ADAPT or LOCKED to ACQUIRE; a departure from LOCKED is counted and ends delivery. -/
def execClockLockLost (l : Lane) (s : State) : Host.Outcome State Fault Refusal :=
  match (s.lane l).rx with
  | .adapt => .next (s.modLane l s.toAcquire)
  | .locked =>
    let s := s.modLane l fun u => { s.toAcquire u with lockLosses := satInc cap16 u.lockLosses }
    .next (laneChanged l (receiverLeftLocked l true s))
  | .off | .seek | .acquire => .next s

/-- TX_MODE_CHANGE_AT_MARKER (R32): a pending change of mode takes effect at the marker boundary. -/
def execTxModeChangeAtMarker (l : Lane) (s : State) : Host.Outcome State Fault Refusal :=
  match (s.lane l).pendingMode with
  | none => .next s
  | some m => .next (s.modLane l fun u => { u with mode := m, pendingMode := none })

end Sys2Proof.Machine
end

