-- ==== Sys2Proof/Machine/Replies.lean ====
section
/-! DEFINITION. The replies of the management port: their fields and bytes (R195 to R197), request by request. -/

namespace Sys2Proof.Machine

/-! ## The record and its bytes (R195, R196) -/

def statusCode : Status → Nat
  | .ok => 0
  | .unknownRequest => 1
  | .badArgument => 2
  | .busy => 3
  | .notFound => 4

/-- The reply as the port sends it. -/
def Reply.bytes (r : Reply) : List Byte := [byteOf (statusCode r.status), r.code] ++ natBytes 2 r.body.length ++ r.body

/-- Byte `i` of a read transaction; bytes beyond the end are 0 (R195). -/
def Reply.byteAt (r : Reply) (i : Nat) : Byte := r.bytes.getD i 0

/-- The new reply replaces the held one. -/
def State.respond (st : Status) (code : Byte) (body : List Byte) (s : State) : State :=
  s.modPort fun p => { p with reply := ⟨st, code, body⟩ }

/-! ## Encodings (R197) -/

/-- A number in one byte. -/
def n1 (n : Nat) : List Byte := natBytes 1 n
/-- A number in two bytes. -/
def n2 (n : Nat) : List Byte := natBytes 2 n
/-- A number, or a remaining time, in three bytes. -/
def n3 (n : Nat) : List Byte := natBytes 3 n
/-- A flag. -/
def flag (b : Bool) : List Byte := [boolByte b]

/-- An optional field. -/
def opt {α : Type} (f : α → List Byte) : Option α → List Byte
  | none => [0]
  | some x => 1 :: f x

/-- A list. -/
def listOf {α : Type} (f : α → List Byte) (xs : List α) : List Byte := byteOf xs.length :: xs.flatMap f

/-- A set of attention causes (R196). -/
def causeBytes (c : CauseSet) : List Byte := n2 c.toNat

/-- The remaining time of a timer that may be stopped, as an optional field (R167). -/
def timerField (s : State) (t : Timer) : List Byte := opt n3 (remainingMs s t)

/-- The remaining time of a timer that R125 and R201 report as a plain field; 0 while it is stopped (log 20). -/
def timeLeft (s : State) (t : Timer) : List Byte := n3 ((remainingMs s t).getD 0)

/-! ## Codes by place in the manual's lists (R197, log 19) -/

def lineModeIndex : LineMode → Fin 3
  | .normal => 0
  | .quiet => 1
  | .stuck => 2

def collStateCode : CollState → Nat
  | .idle => 0
  | .running => 1
  | .done => 2
  | .failed => 3

def endFlagCode : EndFlag → Nat
  | .last => 0
  | .none => 1
  | .notFound => 2

def indicatorCode : IndicatorMode → Nat
  | .off => 0
  | .on => 1
  | .up => 2
  | .anyUp => 3
  | .good => 4
  | .fault => 5
  | .attention => 6

def alignCode : Align → Nat
  | .aligned => 0
  | .search => 1

def primeCode : Prime → Nat
  | .unprimed => 0
  | .priming => 1
  | .primed => 2

def checkRoleCode : CheckRole → Nat
  | .claimant => 0
  | .follower => 1

def checkOutcomeCode : CheckOutcome → Nat
  | .pass => 0
  | .fail => 1
  | .aborted => 2
  | .yielded => 3
  | .noPartner => 4

def rxCode : RxState → Nat
  | .off => 0
  | .seek => 1
  | .acquire => 2
  | .adapt => 3
  | .locked => 4

def txModeCode : TxMode → Nat
  | .squelch => 0
  | .tune => 1
  | .hold => 2
  | .data => 3
  | .pattern => 4

def tuneStateCode : TuneState → Nat
  | .waiting => 0
  | .tuning => 1
  | .closing => 2
  | .done => 3
  | .failed => 4

def tapCode : Tap → Nat
  | .pre => 0
  | .main => 1
  | .post => 2

def tapDirCode : TapDir → Nat
  | .inc => 0
  | .dec => 1

def reqPhaseCode : ReqPhase → Nat
  | .pending => 0
  | .asking => 1
  | .releasing => 2

def tapReqCode : TapReq → Nat
  | .hold => 0
  | .inc => 1
  | .dec => 2

def presetReqCode : PresetReq → Nat
  | .none => 0
  | .preset => 1
  | .initial => 2

def tapStatusCode : TapStatus → Nat
  | .notUpdated => 0
  | .updated => 1
  | .atMin => 2
  | .atMax => 3

def markerLockCode : MarkerLock → Nat
  | .hunt => 0
  | .found => 1
  | .inLock => 2

/-- FREE 0, then the states a capture gives its slot (9.4). -/
def captureStateCode : CaptureState → Nat
  | .filling => 1
  | .held => 2
  | .retrieved => 3

/-! ## READ_STATION -/

/-- The fields of R20. -/
def stationImage (s : State) : List Byte :=
  n1 (roleCode s.straps.role) ++ n1 (planCode s.straps.plan) ++ n1 s.straps.legsel.val
    ++ n1 s.station.val ++ flag s.outOfPlan
    ++ flag s.imageDefaulted ++ flag s.imageAdjusted ++ n2 s.adjust.toNat
    ++ n1 s.image.frontClass ++ n1 (contextCount s.straps) ++ n1 (lanesPerLeg s.straps.plan)
    ++ n1 s.image.depth ++ n1 s.slotCount ++ n1 s.image.capB ++ n1 s.image.capA

/-- The eleven counts in the order of R125. -/
def Line.counts (l : Line) : List Nat :=
  [l.sent, l.received, l.lineErrors, l.failedAttempts, l.retryDiscards, l.alertDrops, l.fetchDrops, l.quietEntries,
    l.stuckEntries, l.slips, l.clashes]

/-- The fields of R125. -/
def stationLine (s : State) : List Byte :=
  let l := s.line
  l.counts.flatMap n2
    ++ [Config.lineModeCode (lineModeIndex l.mode)] ++ timeLeft s l.quietTimer
    ++ n1 l.consecFails ++ [l.trig] ++ flag l.synced ++ flag l.clash
    ++ n1 l.urgent.length ++ n1 l.status.length ++ n1 l.bulk.length ++ flag l.heldFetch.isSome

/-- How many of the station's slots hold a capture in this state. -/
def State.slotsIn (s : State) (st : CaptureState) : Nat :=
  (s.slotIds.filter fun i => match s.slot i with
    | some c => c.state == st
    | none => false).length

/-- How many of the station's slots are FREE. -/
def State.slotsFree (s : State) : Nat := (s.slotIds.filter fun i => (s.slot i).isNone).length

/-- The fields of R186. -/
def stationSlots (s : State) : List Byte :=
  n1 s.slotCount ++ n1 s.slotsFree ++ n1 (s.slotsIn .filling) ++ n1 (s.slotsIn .held) ++ n1 (s.slotsIn .retrieved)
    ++ flag s.overflow ++ n2 s.lost

/-- The fields of R201. -/
def stationPort (s : State) : List Byte :=
  causeBytes s.port.causes ++ causeBytes s.port.enables ++ flag s.port.asserted ++ timeLeft s s.port.throttle
    ++ flag s.port.locate ++ n1 (indicatorCode s.image.indicator) ++ flag s.indicatorLit
    ++ n1 (collStateCode s.coll.state) ++ n2 s.coll.late

/-- The body of READ_STATION: R20, R84, R125, R140, R186, R201. -/
def stationBody (s : State) : List Byte :=
  stationImage s ++ (n2 s.interval.toNat ++ n1 s.image.k) ++ stationLine s
    ++ (n1 s.roster.length ++ n2 s.peerLost) ++ stationSlots s ++ stationPort s

/-! ## READ_LEG -/

/-- A segment's fields of R82.  H[0..15] are sixteen numbers without a length byte (the model's choice, log 18). -/
def segMonitor (x : Seg) : List Byte :=
  n1 (alignCode x.align) ++ opt n2 x.skew ++ flag x.skewFlag ++ n2 x.alignLosses ++ n2 x.skewExcess
    ++ n3 x.acc.n ++ x.acc.h.toList.flatMap n3 ++ n3 x.acc.u ++ flag x.acc.saturated ++ flag x.acc.loss

/-- A gearbox's fields of R82. -/
def gearFields (s : State) (j : CLane) : List Byte :=
  n1 (primeCode (s.split j).prime) ++ n2 (s.split j).losses
    ++ n1 (primeCode (s.merge j).prime) ++ n2 (s.merge j).losses ++ opt n2 (s.merge j).pairSkew

/-- The fields of R82; the gearbox group is absent at ratio 1:1 (log 18). -/
def legMonitor (s : State) (L : Leg) (c : Ctx) : List Byte :=
  flag c.cableOk ++ flag c.frontOk
    ++ opt (fun r => n1 (causeCode r)) c.cable.lastReason ++ opt (fun r => n1 (causeCode r)) c.front.lastReason
    ++ segMonitor c.front ++ segMonitor c.cable
    ++ opt (listOf (gearFields s)) (if s.gear then some (s.cableLanes L) else none)

/-- The fields of R97. -/
def legStrain (c : Ctx) : List Byte :=
  let seg := fun (x : Seg) => n2 x.strain ++ n1 (gradeCode x.grade) ++ n2 x.failEntries
  seg c.front ++ seg c.cable ++ n1 (gradeCode c.legGrade)

/-- A far summary. -/
def farFields (f : FarSummary) : List Byte :=
  n1 (legStateCode f.state) ++ n1 (gradeCode f.grade) ++ flag f.cableOk ++ flag f.frontOk ++ flag f.claim
    ++ n1 (causeCode f.cause)

/-- A far result by its place in R136, and the summary it carries. -/
def farResultFields : FarResult → List Byte
  | .absent => n1 0 ++ opt farFields none
  | .stale => n1 1 ++ opt farFields none
  | .planDiffers f => n1 2 ++ opt farFields f
  | .fresh f => n1 3 ++ opt farFields (some f)

/-- The fields of R167. -/
def legContext (s : State) (L : Leg) (c : Ctx) : List Byte :=
  n1 (legStateCode c.state) ++ n1 (causeCode c.cause) ++ n1 c.retry ++ flag c.held ++ flag c.unattended ++ flag c.claim
    ++ opt (fun r => n1 (checkRoleCode r)) c.role ++ opt (fun o => n1 (checkOutcomeCode o)) c.outcome
    ++ listOf n2 c.patternCounts ++ farResultFields c.far ++ flag (s.frontPresent L)
    ++ timerField s c.solo ++ timerField s c.faultHold ++ timerField s c.dormancy ++ timerField s c.up
    ++ timerField s c.claimWait ++ timerField s c.check ++ timerField s c.supervision ++ timerField s c.release
    ++ flag c.mismatchHeld

/-- The body of READ_LEG: R82, R97, R167. -/
def legBody (s : State) (L : Leg) : List Byte :=
  legMonitor s L (s.ctx L) ++ legStrain (s.ctx L) ++ legContext s L (s.ctx L)

/-! ## READ_LANE -/

/-- Three taps. -/
def tripleBytes (t : Triple Nat) : List Byte := n1 t.pre ++ n1 t.main ++ n1 t.post

/-- The taps in use; an unused front lane's are free values (log 22). -/
def tapFields (s : State) (l : Lane) : List Byte :=
  if isFront l then
    if (s.owner l).isSome then tripleBytes (s.tuner (laneNo l)).taps
    else
      let t := Config.unusedFrontTaps (laneNo l)
      [t.1, t.2.1, t.2.2]
  else tripleBytes (s.image.cableTaps.get (laneNo l))

/-- The cable-side position of a cable lane (R18); a free value for an unused one under reversal (log 22). -/
def positionByte (s : State) (j : CLane) : Byte :=
  match s.position j with
  | some p => byteOf p
  | none => Config.unusedPosition j

/-- The fields of R37; an unused lane's raw detector output is a free value (log 22). -/
def laneReport (s : State) (l : Lane) : List Byte :=
  let u := s.lane l
  let ifFront := fun {α : Type} (x : α) => if isFront l then some x else none
  let ifCable := fun {α : Type} (x : α) => if isFront l then none else some x
  n1 (if isFront l then 0 else 1) ++ opt (fun L : Leg => n1 L.val) (s.owner l) ++ n1 (s.laneClass l)
    ++ opt (fun b : Byte => [b]) (ifCable (positionByte s (laneNo l))) ++ flag (s.polarity l)
    ++ n1 (rxCode u.rx) ++ flag (if (s.owner l).isSome then u.raw else Config.unusedDetector l) ++ flag u.present ++ opt flag (ifFront (s.tuner (laneNo l)).settled)
    ++ n1 (txModeCode u.mode) ++ tapFields s l
    ++ n2 u.lockEntries ++ n2 u.lockLosses ++ n2 u.acquireTimeouts ++ n2 u.adaptTimeouts ++ n2 u.signalLosses
    ++ opt (fun ch : Checker => n2 ch.count ++ flag ch.armed) (ifCable (s.checker (laneNo l)))

/-- The fields of R58.  The closed directions of a tap are two flags, INC before DEC, the taps in the order pre, main, post
(the model's choice, log 18). -/
def tunerReport (s : State) (k : FLane) : List Byte :=
  let t := s.tuner k
  let closed := fun (i : Tap) => flag (tapGet t.closedInc i) ++ flag (tapGet t.closedDec i)
  n1 (tuneStateCode t.st) ++ flag t.unconfirmed ++ tripleBytes t.taps
    ++ opt (fun r : OutRequest => n1 (tapCode r.tap) ++ n1 (tapDirCode r.dir) ++ n1 (reqPhaseCode r.phase)) t.req
    ++ closed .pre ++ closed .main ++ closed .post
    ++ n1 t.run ++ flag t.partnerReady ++ flag (s.ownReady k)
    ++ n1 (tapReqCode t.seenReqs.pre) ++ n1 (tapReqCode t.seenReqs.main) ++ n1 (tapReqCode t.seenReqs.post)
    ++ n1 (presetReqCode t.seenPreset)
    ++ n1 (tapStatusCode t.statuses.pre) ++ n1 (tapStatusCode t.statuses.main) ++ n1 (tapStatusCode t.statuses.post)
    ++ n1 t.failures ++ n2 t.abandoned ++ n2 t.frameErrors

/-- The fields of R63; an unused lane's marker-lock state is a free value (log 22). -/
def markerReport (s : State) (l : Lane) : List Byte :=
  let u := s.lane l
  (if (s.owner l).isSome then n1 (markerLockCode u.lock) else [Config.unusedMarkerLock l])
    ++ opt n1 (if u.lock = .inLock then some u.badRun else none) ++ n2 u.markerLosses ++ n2 u.mismatches

/-- The body of READ_LANE: R37, R58, R63; the tuning group is absent for a cable lane and an unused lane (log 18). -/
def laneBody (s : State) (l : Lane) : List Byte :=
  laneReport s l
    ++ opt (tunerReport s) (if isFront l && (s.owner l).isSome then some (laneNo l) else none)
    ++ markerReport s l

/-! ## READ_ROSTER (R126, R140) -/

/-- Whole milliseconds since an entry's latest BEACON, saturating at 65535 (R132). -/
def Entry.ageMs (now : Nat) (e : Entry) : Nat := min 65535 ((now - e.heardAt) / 1000000)

/-- An entry's fields, its summary list at its place in the table of 7.1 (the model's choice, log 18). -/
def entryFields (now : Nat) (e : Entry) : List Byte :=
  n1 e.station.val ++ n1 (roleCode e.role) ++ n1 (planCode e.plan) ++ n1 e.frontClass ++ [e.trig] ++ flag e.synced
    ++ listOf (fun x : Summary => n1 x.leg.val ++ farFields x.sum) e.summaries
    ++ n2 (e.ageMs now) ++ n1 (if e.fresh then 0 else 1) ++ n2 e.heard ++ flag e.differs

/-! ## Records and captures (5.3, R169, R176) -/

def segRecordFields (r : SegRecord) : List Byte :=
  n3 r.n ++ n1 r.t ++ n3 r.u ++ n2 r.dn ++ n2 r.strain ++ n1 (gradeCode r.grade) ++ flag r.loss ++ flag r.saturated

/-- An interval record in the field order of 5.3. -/
def recordFields (r : Record) : List Byte :=
  n2 r.interval.toNat ++ n1 (legStateCode r.state) ++ n1 (gradeCode r.grade)
    ++ segRecordFields r.front ++ segRecordFields r.cable

/-- A capture's header in the order of R176. -/
def headerFields (c : Capture) : List Byte :=
  opt (fun b : Byte => [b]) c.trig ++ n1 c.origin.val ++ n1 c.leg.val ++ n1 c.cause ++ n2 c.t.toNat
    ++ opt (fun x : IntervalNo => n2 x.toNat) c.first ++ n1 c.records.length
    ++ flag c.truncated ++ flag c.isLocal ++ flag c.unshared ++ n1 (captureStateCode c.state)

/-! ## READ_COLLECTION (R190, R194) -/

/-- Every field of the unit but the timer, with the number of buffer entries for the buffer (log 21). -/
def collFields (c : Collection) : List Byte :=
  n1 (collStateCode c.state) ++ n1 c.target.val ++ [c.trig] ++ n1 c.leg.val ++ n1 (criterionCode c.criterion)
    ++ [c.cursor] ++ n1 c.timeouts ++ opt (fun e => n1 (endFlagCode e)) c.endFlag ++ flag c.truncated ++ n2 c.late
    ++ n1 c.buffer.length

/-- A buffer entry: its offset in two's complement and its digest. -/
def bufferFields (x : Int × Digest) : List Byte := BitVec.ofInt 8 x.1 :: encodeDigest x.2

end Sys2Proof.Machine
end

