-- ==== Sys2Proof/Machine/Requests.lean ====
section
/-! DEFINITION. The meanings of the management requests (R195, R196), each an operation that acts and forms its reply. -/

namespace Sys2Proof.Machine

/-- A request is taken: outside a running part it is answered BUSY and has no other effect (R19, R195). -/
def ask (code : Byte) (op : State → State) (s : State) : State :=
  if s.phase = .running then op s else s.respond .busy code []

/-- The context a leg argument names, if the station holds it (R14). -/
def State.heldLeg (s : State) (leg : Byte) : Option Leg :=
  match legOfCode leg.toNat with
  | none => none
  | some L => if (s.ctx? L).isSome then some L else none

/-! ## Reading -/

/-- READ_STATION. -/
def opReadStation (s : State) : State := s.respond .ok 0x01 (stationBody s)

/-- READ_LEG (R14). -/
def opReadLeg (leg : Byte) (s : State) : State :=
  match s.heldLeg leg with
  | none => s.respond .badArgument 0x02 []
  | some L => s.respond .ok 0x02 (legBody s L)

/-- READ_LANE (R37). -/
def opReadLane (lane : Byte) (s : State) : State :=
  if h : lane.toNat < 16 then s.respond .ok 0x03 (laneBody s ⟨lane.toNat, h⟩) else s.respond .badArgument 0x03 []

/-- READ_ROSTER (R140). -/
def opReadRoster (index : Byte) (s : State) : State :=
  if 7 < index.toNat then s.respond .badArgument 0x04 []
  else match s.roster[index.toNat]? with
    | none => s.respond .notFound 0x04 (n1 s.roster.length)
    | some e => s.respond .ok 0x04 (n1 s.roster.length ++ entryFields s.now e)

/-- The record of a ring at an age; the newest, last in the list, has age 0 (R168). -/
def recordAt (ring : List Record) (age : Nat) : Option Record := ring.reverse[age]?

/-- READ_RECORD (R169). -/
def opReadRecord (leg age : Byte) (s : State) : State :=
  match s.heldLeg leg with
  | none => s.respond .badArgument 0x05 []
  | some L =>
    let ring := (s.ctx L).ring
    if 63 < age.toNat then s.respond .badArgument 0x05 []
    else match recordAt ring age.toNat with
      | none => s.respond .notFound 0x05 (n1 ring.length)
      | some r => s.respond .ok 0x05 (recordFields r ++ n1 ring.length ++ n2 s.interval.toNat)

/-- The capture after a read at this index: HELD becomes RETRIEVED at its first full read (R181). -/
def Capture.read (index : Nat) (c : Capture) : Capture :=
  if c.state = .held ∧ (c.records.length = 0 ∨ index + 1 = c.records.length) then { c with state := .retrieved } else c

/-- READ_CAPTURE (R181). -/
def opReadCapture (slot record : Byte) (s : State) : State :=
  if h : slot.toNat < 8 then
    if s.slotCount ≤ slot.toNat ∨ 31 < record.toNat then s.respond .badArgument 0x06 []
    else
      let i : Fin 8 := ⟨slot.toNat, h⟩
      match s.slot i with
      | none => s.respond .notFound 0x06 []
      | some c =>
        let c' := c.read record.toNat
        let s := s.setSlot i (some c')
        match c.records[record.toNat]? with
        | none => s.respond .notFound 0x06 (headerFields c')
        | some r => s.respond .ok 0x06 (headerFields c' ++ recordFields r)
  else s.respond .badArgument 0x06 []

/-- READ_COLLECTION (R194). -/
def opReadCollection (index : Byte) (s : State) : State :=
  if 31 < index.toNat then s.respond .badArgument 0x07 []
  else match s.coll.buffer[index.toNat]? with
    | none => s.respond .notFound 0x07 (collFields s.coll)
    | some x => s.respond .ok 0x07 (collFields s.coll ++ bufferFields x)

/-- READ_ATTENTION (R198, R199). -/
def opReadAttention (s : State) : State :=
  let p := s.port
  ((s.respond .ok 0x08 (causeBytes p.causes ++ causeBytes p.enables ++ flag p.asserted)).modPort fun p =>
    { p with causes := p.causes &&& ~~~p.enables }).refreshAttention

/-! ## RESTART_LEG (R38, R55, R80, R99, R165) -/

/-- A used lane at a restart (R38, R80): to SEEK with a fresh run, and to HUNT. -/
def restartLane (l : Lane) (s : State) : State :=
  s.modLane l fun u => { s.toSeek u with lock := .hunt, badRun := 0 }

/-- A front lane at a restart: its receiver withdraws settled as well.  Its wish is left for the restart of the engine, which
reports it abandoned (the model's choice, log 36). -/
def restartFront (k : FLane) (s : State) : State :=
  (restartLane (frontLane k) s).modTuner k fun t => { t with settled := false }

/-- A cable lane at a restart: its checker is disarmed with count 0, and its gearbox paths are unprimed, uncounted. -/
def restartCable (k : CLane) (s : State) : State :=
  let s := (restartLane (cableLane k) s).modChecker k fun ch => { ch.disarm with count := 0 }
  (s.modSplit k (Split.unprime false)).modMerge k (Merge.lockLost false)

/-- A segment at a restart (R80, R99): counts kept, the rest as at the end of the load. -/
def Seg.restart (x : Seg) : Seg :=
  { x with align := .search, skew := none, skewFlag := false, acc := {}, strain := 0, grade := .good, lastReason := none }

/-- The lanes, monitor, gearbox, strain and grade of a context at a restart. -/
def restartSides (L : Leg) (s : State) : State :=
  let before := (s.ctx L).legGrade
  let s := forLanes restartCable (s.cableLanes L) (forLanes restartFront (s.frontLanes L) s)
  let s := s.modCtx L fun c => { c with
    front := c.front.restart, cable := c.cable.restart, frontOk := false, cableOk := false, legGrade := .good }
  handGrade before L s

/-- What the restart does to the check of a context (R165). -/
def restartCheck (L : Leg) (s : State) : State :=
  let c := s.ctx L
  if c.state = .check then (if c.inRelease then s else abortCheck L s)
  else s.modCtx L fun c => { c with
    role := none, outcome := none, patternCounts := List.replicate (s.cableLanes L).length 0 }

/-- Every timer stops, the retry count and the unattended flag are cleared (R165). -/
def Ctx.stopTimers (c : Ctx) : Ctx :=
  { c with
    retry := 0, unattended := false
    solo := none, faultHold := none, dormancy := none, up := none, claimWait := none, check := none
    supervision := none, release := none }

/-- A restart of context `L` (R165).  The WAKE of a DORMANT one joins the status queue before the BEACON of its change notice
(the model's choice, log 27).  The receivers go to SEEK before the engines restart, yet a wish taken or waiting still stands for
the restart, so each is reported abandoned (the model's choice, log 36). -/
def restartLeg (L : Leg) (s : State) : State :=
  let c := s.ctx L
  let s := setClaim L false (restartCheck L s)
  let s := s.modCtx L Ctx.stopTimers
  if c.mismatchHeld then restartTuning L (restartSides L s)
  else
    let s := if c.state = .dormant then s.queueSleep .wake L else s
    let s := setLegCause L .none (setLegState L .rising s)
    risingGoesOn L (startDormancy L (restartTuning L (restartSides L s)))

/-- RESTART_LEG (R165). -/
def opRestartLeg (leg : Byte) (s : State) : State :=
  match s.heldLeg leg with
  | none => s.respond .badArgument 0x10 []
  | some L => (restartLeg L s).respond .ok 0x10 []

/-! ## Other requests that act -/

/-- Whether CHECK_SEGMENT is refused with BUSY (R157). -/
def Ctx.refusesCheck (c : Ctx) : Bool :=
  c.state == .dormant || c.state == .rising || c.state == .check || c.mismatchHeld || c.claim || c.far.claims

/-- CHECK_SEGMENT (R157). -/
def opCheckSegment (leg : Byte) (s : State) : State :=
  match s.heldLeg leg with
  | none => s.respond .badArgument 0x11 []
  | some L =>
    if (s.ctx L).refusesCheck then s.respond .busy 0x11 []
    else
      let s := setClaim L true s
      (s.modCtx L fun c => { c with
        claimWait := s.start (4 * s.beaconPeriod), outcome := none, role := some .claimant }).respond .ok 0x11 []

/-- CLEAR_CAPTURES (R183). -/
def opClearCaptures (s : State) : State :=
  ({ s with slots := Vector.replicate 8 none, overflow := false } : State).respond .ok 0x12 []

/-- TRIGGER (R164): the named leg, or 0 for every context. -/
def opTrigger (leg : Byte) (s : State) : State :=
  if leg = 0 then (originate .manual 3 0 s.legs s.interval s).respond .ok 0x13 []
  else match s.heldLeg leg with
    | none => s.respond .badArgument 0x13 []
    | some L => (originate .manual 3 L [L] s.interval s).respond .ok 0x13 []

/-- The unit takes a COLLECT (R191): the four arguments, an empty buffer, RUNNING. -/
def Collection.begin (f : Fetch) (c : Collection) : Collection :=
  { c with
    state := .running, target := f.target, trig := f.trig, leg := f.leg, criterion := f.criterion
    cursor := 0, timeouts := 0, endFlag := none, truncated := false, buffer := [] }

/-- A COLLECT's arguments within their ranges, as the FETCH with cursor 0 (R191). -/
def collectArgs (s : State) (target trig leg criterion : Byte) : Option Fetch := do
  let t ← stationOfCode target.toNat
  let L ← legOfCode leg.toNat
  let c ← criterionOfCode criterion.toNat
  if s.outOfPlan && t != s.station then none else return ⟨t, L, trig, c, 0⟩

/-- COLLECT (R191, R194). -/
def opCollect (target trig leg criterion : Byte) (s : State) : State :=
  match collectArgs s target trig leg criterion with
  | none => s.respond .badArgument 0x14 []
  | some f =>
    if s.coll.state = .running then s.respond .busy 0x14 []
    else
      let s := s.modColl (Collection.begin f)
      (if f.target = s.station then serveSelf selfBodies s else handOwnFetch s).respond .ok 0x14 []

/-- The causes a set argument names; none where one of bits 9 to 15 is set (R196). -/
def causeSetOf (set : BitVec 16) : Option CauseSet := if set.toNat < 512 then some (set.setWidth 9) else none

/-- SET_ENABLES (R198, R199). -/
def opSetEnables (set : BitVec 16) (s : State) : State :=
  match causeSetOf set with
  | none => s.respond .badArgument 0x18 []
  | some m => ((s.respond .ok 0x18 (causeBytes m)).modPort fun p => { p with enables := m }).refreshAttention

/-- FORCE_CAUSE (R198). -/
def opForceCause (set : BitVec 16) (s : State) : State :=
  match causeSetOf set with
  | none => s.respond .badArgument 0x19 []
  | some m =>
    let s := s.addCauses m
    s.respond .ok 0x19 (causeBytes s.port.causes)

/-- Half of a blink (R200). -/
def blinkTime : Nat := msec 500

/-- LOCATE (R200). -/
def opLocate (on : Byte) (s : State) : State :=
  if on = 1 then
    (s.respond .ok 0x1A []).modPort fun p => { p with locate := true, blinkLit := true, blinkTimer := s.start blinkTime }
  else if on = 0 then
    (s.respond .ok 0x1A []).modPort fun p => { p with locate := false, blinkLit := false, blinkTimer := none }
  else s.respond .badArgument 0x1A []

/-! ## The commands -/

def execReadStation (s : State) : Host.Outcome State Fault Refusal := .next (ask 0x01 opReadStation s)
def execReadLeg (leg : Byte) (s : State) : Host.Outcome State Fault Refusal := .next (ask 0x02 (opReadLeg leg) s)
def execReadLane (lane : Byte) (s : State) : Host.Outcome State Fault Refusal := .next (ask 0x03 (opReadLane lane) s)
def execReadRoster (index : Byte) (s : State) : Host.Outcome State Fault Refusal :=
  .next (ask 0x04 (opReadRoster index) s)
def execReadRecord (leg age : Byte) (s : State) : Host.Outcome State Fault Refusal :=
  .next (ask 0x05 (opReadRecord leg age) s)
def execReadCapture (slot record : Byte) (s : State) : Host.Outcome State Fault Refusal :=
  .next (ask 0x06 (opReadCapture slot record) s)
def execReadCollection (index : Byte) (s : State) : Host.Outcome State Fault Refusal :=
  .next (ask 0x07 (opReadCollection index) s)
def execReadAttention (s : State) : Host.Outcome State Fault Refusal := .next (ask 0x08 opReadAttention s)
def execRestartLeg (leg : Byte) (s : State) : Host.Outcome State Fault Refusal :=
  .next (ask 0x10 (opRestartLeg leg) s)
def execCheckSegment (leg : Byte) (s : State) : Host.Outcome State Fault Refusal :=
  .next (ask 0x11 (opCheckSegment leg) s)
def execClearCaptures (s : State) : Host.Outcome State Fault Refusal := .next (ask 0x12 opClearCaptures s)
def execTrigger (leg : Byte) (s : State) : Host.Outcome State Fault Refusal := .next (ask 0x13 (opTrigger leg) s)
def execCollect (target trig leg criterion : Byte) (s : State) : Host.Outcome State Fault Refusal :=
  .next (ask 0x14 (opCollect target trig leg criterion) s)
def execSetEnables (set : BitVec 16) (s : State) : Host.Outcome State Fault Refusal :=
  .next (ask 0x18 (opSetEnables set) s)
def execForceCause (set : BitVec 16) (s : State) : Host.Outcome State Fault Refusal :=
  .next (ask 0x19 (opForceCause set) s)
def execLocate (on : Byte) (s : State) : Host.Outcome State Fault Refusal := .next (ask 0x1A (opLocate on) s)

/-- The operation of a request. -/
def Request.op : Request → State → State
  | .readStation => opReadStation
  | .readLeg a => opReadLeg a
  | .readLane a => opReadLane a
  | .readRoster a => opReadRoster a
  | .readRecord a b => opReadRecord a b
  | .readCapture a b => opReadCapture a b
  | .readCollection a => opReadCollection a
  | .readAttention => opReadAttention
  | .restartLeg a => opRestartLeg a
  | .checkSegment a => opCheckSegment a
  | .clearCaptures => opClearCaptures
  | .trigger a => opTrigger a
  | .collect a b c d => opCollect a b c d
  | .setEnables m => opSetEnables m
  | .forceCause m => opForceCause m
  | .locate a => opLocate a

/-- The bytes of a write transaction (R195): an empty one is no request; bytes that spell a request are taken as it
(log 31). -/
def takeWrite (bytes : List Byte) (s : State) : State :=
  match parseWrite bytes with
  | .empty => s
  | .malformed code => ask code (State.respond .badArgument code []) s
  | .unknown code => ask code (State.respond .unknownRequest code []) s
  | .request r => ask r.code r.op s

/-- UNKNOWN_REQUEST (R195). -/
def execUnknownRequest (bytes : List Byte) (s : State) : Host.Outcome State Fault Refusal := .next (takeWrite bytes s)

/-! ## Attention and indicator -/

/-- THROTTLE_EXPIRY (R199): asserted if an enabled cause is set. -/
def execThrottleExpiry (s : State) : Host.Outcome State Fault Refusal :=
  if s.port.throttle = none then .next s
  else .next (((s.reach s.port.throttle).modPort fun p => { p with throttle := none }).refreshAttention)

/-- LOCATE_BLINK (R200): lit and dark in turn, 500 ms each. -/
def execLocateBlink (s : State) : Host.Outcome State Fault Refusal :=
  if s.port.locate ∧ s.port.blinkTimer ≠ none then
    let s := s.reach s.port.blinkTimer
    .next (s.modPort fun p => { p with
      blinkLit := !p.blinkLit, blinkTimer := p.blinkTimer.map (· + blinkTime) })
  else .next s

end Sys2Proof.Machine
end

