-- ==== Sys2Proof/Machine/TuningEvents.lean ====
section
/-! DEFINITION. The meanings of the front receivers' and tuning engines' events (R27, R39 to R58). -/

namespace Sys2Proof.Machine

/-- The engine of a front lane runs (R16, R41): a context owns the lane. -/
def State.engineRuns (s : State) (k : FLane) : Bool := s.phase == .running && (s.owner (frontLane k)).isSome

/-- The lane unit and the monitor take a change of the engine (R58). -/
def tuningChanged (k : FLane) (s : State) : State := laneChanged (frontLane k) s

/-- TAP_WISH (R27, R47): a LOCKED front receiver presents a wish, at most one at a time. -/
def execTapWish (k : FLane) (i : Tap) (d : TapDir) (s : State) : Host.Outcome State Fault Refusal :=
  if s.engineRuns k ∧ (s.lane (frontLane k)).rx = .locked ∧ (s.tuner k).wish = none then
    .next (s.modTuner k fun t => ({ t with wish := some (i, d) }).takeWish s.now)
  else .next s

/-- SETTLED (R27, R50, R51): raised at most once in a stay in LOCKED, by a receiver with no wish to present.  A wish taken
as the outstanding request stands until the engine reports its end. -/
def execSettled (k : FLane) (s : State) : Host.Outcome State Fault Refusal :=
  if s.engineRuns k ∧ (s.lane (frontLane k)).rx = .locked ∧ !(s.tuner k).settled ∧ (s.tuner k).wish = none
      ∧ (s.tuner k).req = none then
    .next (tuningChanged k (s.modTuner k fun t => ({ t with settled := true }).proceed s.now true))
  else .next s

/-- TUNING_FRAME_RECEIVED (R40): discarded on a bad check, read in TUNING and CLOSING.  A frame is recognised only
among the symbols a LOCKED receiver delivers. -/
def execTuningFrameReceived (k : FLane) (f : TuningFrame) (checkHolds : Bool) (s : State) :
    Host.Outcome State Fault Refusal :=
  if s.engineRuns k ∧ (s.lane (frontLane k)).rx = .locked then
    if checkHolds then
      .next (tuningChanged k (s.modTuner k (Tuner.readFrame s.now (s.ownReady k) (s.initialTaps k) f)))
    else .next (s.modTuner k Tuner.badFrame)
  else .next s

/-- TUNING_FRAME_SENT (R51, R57): frames are sent only while the transmitter is in TUNE; the eighth closing frame gives
DONE. -/
def execTuningFrameSent (k : FLane) (s : State) : Host.Outcome State Fault Refusal :=
  if s.engineRuns k ∧ (s.lane (frontLane k)).mode = .tune then
    .next (tuningChanged k (s.modTuner k Tuner.sentClosing))
  else .next s

/-- ANSWER_TIMER_EXPIRY (R49): the outstanding request is abandoned and counted. -/
def execAnswerTimerExpiry (k : FLane) (s : State) : Host.Outcome State Fault Refusal :=
  let t := s.tuner k
  if t.answerTimer = none then .next s
  else
    let s := s.reach t.answerTimer
    .next (tuningChanged k (s.modTuner k fun t =>
      ({ t.dropRequest with abandoned := satInc cap16 t.abandoned }).proceed s.now (s.ownReady k)))

/-- TUNING_RELEASE_TIMER_EXPIRY (R48): the request ends as answered with the answer already read. -/
def execTuningReleaseTimerExpiry (k : FLane) (s : State) : Host.Outcome State Fault Refusal :=
  let t := s.tuner k
  if t.releaseTimer = none then .next s
  else
    let s := s.reach t.releaseTimer
    .next (tuningChanged k (s.modTuner k fun t => t.endAnswered.proceed s.now (s.ownReady k)))

/-- TUNING_TIMEOUT (R52, R53). -/
def execTuningTimeout (k : FLane) (s : State) : Host.Outcome State Fault Refusal :=
  let t := s.tuner k
  if t.tuneTimer = none then .next s
  else
    let s := s.reach t.tuneTimer
    .next (tuningChanged k (s.modTuner k (Tuner.timeout s.now (s.ownReady k))))

/-- FAILURE_WAIT_END (R53, R55): the engine of this lane alone restarts. -/
def execFailureWaitEnd (k : FLane) (s : State) : Host.Outcome State Fault Refusal :=
  let t := s.tuner k
  if t.failWait = none then .next s
  else .next (tuningChanged k ((s.reach t.failWait).restartTuner k))

end Sys2Proof.Machine
end

