-- ==== Sys2Proof/Machine/Dispatch.lean ====
section
/-! DEFINITION. What each command does: one arm for each constructor of Instr, each one call of its meaning. -/

namespace Sys2Proof.Machine

/-- The effect of a command on everything but the queue. -/
def exec (i : Instr) (s : State) : Host.Outcome State Fault Refusal :=
  match i with
  | .powerOn => Sys2Proof.Machine.execPowerOn s
  | .endOfReset straps => Sys2Proof.Machine.execEndOfReset straps s
  | .imageLoadEnd mem signals => Sys2Proof.Machine.execImageLoadEnd mem signals s
  | .signalDetectChange lane present => Sys2Proof.Machine.execSignalDetectChange lane present s
  | .presentFlagSet lane => Sys2Proof.Machine.execPresentFlagSet lane s
  | .seekRunEnd lane => Sys2Proof.Machine.execSeekRunEnd lane s
  | .signalAbsent lane => Sys2Proof.Machine.execSignalAbsent lane s
  | .clockLock lane => Sys2Proof.Machine.execClockLock lane s
  | .acquireTimeout lane => Sys2Proof.Machine.execAcquireTimeout lane s
  | .adaptationComplete lane => Sys2Proof.Machine.execAdaptationComplete lane s
  | .adaptTimeout lane => Sys2Proof.Machine.execAdaptTimeout lane s
  | .clockLockLost lane => Sys2Proof.Machine.execClockLockLost lane s
  | .tapWish lane tap dir => Sys2Proof.Machine.execTapWish lane tap dir s
  | .settled lane => Sys2Proof.Machine.execSettled lane s
  | .tuningFrameReceived lane frame checkHolds => Sys2Proof.Machine.execTuningFrameReceived lane frame checkHolds s
  | .tuningFrameSent lane => Sys2Proof.Machine.execTuningFrameSent lane s
  | .answerTimerExpiry lane => Sys2Proof.Machine.execAnswerTimerExpiry lane s
  | .tuningReleaseTimerExpiry lane => Sys2Proof.Machine.execTuningReleaseTimerExpiry lane s
  | .tuningTimeout lane => Sys2Proof.Machine.execTuningTimeout lane s
  | .failureWaitEnd lane => Sys2Proof.Machine.execFailureWaitEnd lane s
  | .txModeChangeAtMarker lane => Sys2Proof.Machine.execTxModeChangeAtMarker lane s
  | .markerFound lane index arrival swapped => Sys2Proof.Machine.execMarkerFound lane index arrival swapped s
  | .markerCheck lane reading => Sys2Proof.Machine.execMarkerCheck lane reading s
  | .codewordClassified leg seg cls => Sys2Proof.Machine.execCodewordClassified leg seg cls s
  | .intervalClose => Sys2Proof.Machine.execIntervalClose s
  | .firstBeacon => Sys2Proof.Machine.execFirstBeacon s
  | .attemptStart idleRun => Sys2Proof.Machine.execAttemptStart idleRun s
  | .arbitrationLost => Sys2Proof.Machine.execArbitrationLost s
  | .attemptAbort backoff => Sys2Proof.Machine.execAttemptAbort backoff s
  | .abortMarkEnd => Sys2Proof.Machine.execAbortMarkEnd s
  | .attemptEnd mark => Sys2Proof.Machine.execAttemptEnd mark s
  | .messageDiscarded levels => Sys2Proof.Machine.execMessageDiscarded s levels
  | .beaconReceived sender body priority => Sys2Proof.Machine.execBeaconReceived sender body s priority
  | .alertReceived sender body priority => Sys2Proof.Machine.execAlertReceived sender body s priority
  | .hushReceived sender body priority => Sys2Proof.Machine.execHushReceived sender body s priority
  | .wakeReceived sender body priority => Sys2Proof.Machine.execWakeReceived sender body s priority
  | .fetchReceived sender body priority => Sys2Proof.Machine.execFetchReceived sender body s priority
  | .parcelReceived sender body priority => Sys2Proof.Machine.execParcelReceived sender body s priority
  | .quietTimerExpiry => Sys2Proof.Machine.execQuietTimerExpiry s
  | .stuckEntry => Sys2Proof.Machine.execStuckEntry s
  | .stuckExit => Sys2Proof.Machine.execStuckExit s
  | .beaconTimerExpiry => Sys2Proof.Machine.execBeaconTimerExpiry s
  | .spacingTimerExpiry => Sys2Proof.Machine.execSpacingTimerExpiry s
  | .entryStale station => Sys2Proof.Machine.execEntryStale station s
  | .entryRemoved station => Sys2Proof.Machine.execEntryRemoved station s
  | .soloTimerExpiry leg => Sys2Proof.Machine.execSoloTimerExpiry leg s
  | .faultHoldExpiry leg => Sys2Proof.Machine.execFaultHoldExpiry leg s
  | .upTimerExpiry leg => Sys2Proof.Machine.execUpTimerExpiry leg s
  | .dormancyTimerExpiry leg => Sys2Proof.Machine.execDormancyTimerExpiry leg s
  | .claimWaitExpiry leg => Sys2Proof.Machine.execClaimWaitExpiry leg s
  | .checkTimerExpiry leg => Sys2Proof.Machine.execCheckTimerExpiry leg s
  | .supervisionTimerExpiry leg => Sys2Proof.Machine.execSupervisionTimerExpiry leg s
  | .checkReleaseTimerExpiry leg => Sys2Proof.Machine.execCheckReleaseTimerExpiry leg s
  | .collectAnswerTimeout => Sys2Proof.Machine.execCollectAnswerTimeout s
  | .readStation => Sys2Proof.Machine.execReadStation s
  | .readLeg leg => Sys2Proof.Machine.execReadLeg leg s
  | .readLane lane => Sys2Proof.Machine.execReadLane lane s
  | .readRoster index => Sys2Proof.Machine.execReadRoster index s
  | .readRecord leg age => Sys2Proof.Machine.execReadRecord leg age s
  | .readCapture slot record => Sys2Proof.Machine.execReadCapture slot record s
  | .readCollection index => Sys2Proof.Machine.execReadCollection index s
  | .readAttention => Sys2Proof.Machine.execReadAttention s
  | .restartLeg leg => Sys2Proof.Machine.execRestartLeg leg s
  | .checkSegment leg => Sys2Proof.Machine.execCheckSegment leg s
  | .clearCaptures => Sys2Proof.Machine.execClearCaptures s
  | .trigger leg => Sys2Proof.Machine.execTrigger leg s
  | .collect target trig leg criterion => Sys2Proof.Machine.execCollect target trig leg criterion s
  | .setEnables set => Sys2Proof.Machine.execSetEnables set s
  | .forceCause set => Sys2Proof.Machine.execForceCause set s
  | .locate on => Sys2Proof.Machine.execLocate on s
  | .unknownRequest bytes => Sys2Proof.Machine.execUnknownRequest bytes s
  | .throttleExpiry => Sys2Proof.Machine.execThrottleExpiry s
  | .locateBlink => Sys2Proof.Machine.execLocateBlink s
  | .patternCheckerSymbol lane level => Sys2Proof.Machine.execPatternCheckerSymbol lane level s

end Sys2Proof.Machine
end

