-- ==== Sys2Proof/Machine/Idle.lean ====
section
/-! DEFINITION. What passes in a bit time in which no command comes. -/

namespace Sys2Proof.Machine

/-- The runs after the bit that begins at `now` while the station does not listen to others (R101, R115).  A bit of an own attempt
reads as it is sent; while this station drives its abort mark, or finds the line stuck, the bit is dominant. -/
def Line.readBit (now : Nat) (l : Line) : Line :=
  match l.attempt with
  | some a => { l with idleRun := 0, domRun := a.frame.domRunOf (a.bitsRead (now + bitTime)) }
  | none => { l with domRun := satInc 255 l.domRun, idleRun := 0 }

/-- One bit time of 1 us passes with no event of the table in it; the line is read once the load has ended (R101).  The bit
of a station that listens is recessive, in a message of another station too (log 3). -/
def idleTick (s : State) : State :=
  if s.hears && s.line.mode != .stuck then s.hearBit true
  else { s with
    now := s.now + bitTime
    line := if s.phase = .running then s.line.readBit s.now else s.line }

end Sys2Proof.Machine
end

