-- ==== Sys2Proof/Machine/Invariants.lean ====
section
/-! DEFINITION. What holds of the state at every moment, each from a rule that says so: the predicates of the invariant
statements. -/

namespace Sys2Proof.Machine

/-- Until the end of the load nothing but the clock, the phase, the straps, the held reply and the queue has changed
since power-on: the fixed start condition of R19. -/
def UntouchedBeforeLoad (s : State) : Prop :=
  s.phase ≠ .running →
    s = { State.reset with
      phase := s.phase, now := s.now, straps := s.straps, pending := s.pending
      port := { State.reset.port with reply := s.port.reply } }

/-! ## Lanes -/

/-- A receiver that has left SEEK for ACQUIRE. -/
def RxState.tracking : RxState → Bool
  | .acquire => true
  | .adapt => true
  | .locked => true
  | .off => false
  | .seek => false

/-- A receiver in ACQUIRE, ADAPT or LOCKED has its present flag set (R22, R23, R26). -/
def PresentWhileTracking (s : State) : Prop := ∀ l : Lane, (s.lane l).rx.tracking = true → (s.lane l).present = true

/-- Only a LOCKED receiver's lane is in FOUND or IN_LOCK (R62). -/
def MarkersOnlyLocked (s : State) : Prop := ∀ l : Lane, (s.lane l).lock ≠ .hunt → (s.lane l).rx = .locked

/-- A lane without a context is OFF and in SQUELCH (R16). -/
def UnusedLanesQuiet (s : State) : Prop :=
  ∀ l : Lane, s.owner l = none → (s.lane l).rx = .off ∧ (s.lane l).mode = .squelch ∧ (s.lane l).pendingMode = none

/-- The contexts of a running station are those of R14, and own lanes of their own legs alone. -/
def ContextsOfPlan (s : State) : Prop := s.phase = .running → ∀ L : Leg, (s.ctx? L).isSome = holdsLeg s.straps L

/-- Every transmitter is in the mode its table calls for, or waits for a marker boundary to enter it (R30 to R32, R35). -/
def TransmittersFollowTables (s : State) : Prop :=
  ∀ l : Lane, ((s.lane l).pendingMode.getD (s.lane l).mode) = s.tableMode l

/-! ## The image and the taps (R8 to R12, R42) -/

/-- A tap triple within its ranges and the sum limit. -/
def TapsInRange (t : Triple Nat) : Prop := t.pre ≤ 12 ∧ 20 ≤ t.main ∧ t.main ≤ 44 ∧ t.post ≤ 16 ∧ t.pre + t.main + t.post ≤ 56

/-- The ranges of R7 and the relations of R8 to R11. -/
def Image.InRange (m : Image) : Prop :=
  (m.frontClass = 1 ∨ m.frontClass = 2) ∧ m.k ≤ 7 ∧ (m.depth = 16 ∨ m.depth = 32 ∨ m.depth = 64)
    ∧ m.lineDelay ≤ 3 ∧ m.beaconCode ≤ 3 ∧ m.markTail ≤ 17 ∧ m.dormCode ≤ 3 ∧ m.soloCode ≤ 3
    ∧ 1 ≤ m.hyst ∧ m.hyst ≤ m.warn ∧ m.warn < m.fail ∧ m.fail ≤ 4095
    ∧ m.capB ≤ 24 ∧ m.capA ≤ 24 ∧ m.capB + m.capA + 1 ≤ 32 ∧ m.capB + m.capA + 1 ≤ m.depth
    ∧ ∀ k : Fin 8, TapsInRange (m.cableTaps.get k) ∧ TapsInRange (m.frontTaps.get k)

/-- The image and every front lane's own taps keep their ranges. -/
def TapsStayInRange (s : State) : Prop := s.image.InRange ∧ ∀ k : FLane, TapsInRange (s.tuner k).taps

/-! ## Contexts -/

/-- The readiness conditions are what R76 and R77 make of the state. -/
def ReadinessIsCurrent (s : State) : Prop :=
  ∀ L : Leg, ∀ c : Ctx, s.ctx? L = some c →
    c.cableOk = (s.cableFail L).isNone ∧ c.frontOk = (s.frontFail L).isNone

/-- The states in which the dormancy timer may run (R152). -/
def LegState.awake : LegState → Bool
  | .rising => true
  | .ready => true
  | .up => true
  | .faulted => true
  | .dormant => false
  | .check => false

/-- The dormancy timer runs while front_present is false in RISING, READY, UP or FAULTED, unless held in
PLAN_MISMATCH, and at no other time (R152). -/
def DormancyTimerRuns (s : State) : Prop :=
  ∀ L : Leg, ∀ c : Ctx, s.ctx? L = some c →
    c.dormancy.isSome = (c.state.awake && !c.mismatchHeld && !s.frontPresent L)

/-- Which other timers of a context run in which leg state (R144, R145, R157, R160, R161). -/
def TimersFitState (s : State) : Prop :=
  ∀ L : Leg, ∀ c : Ctx, s.ctx? L = some c →
    c.solo.isSome = (c.state == .ready)
      ∧ (c.up.isSome → c.state = .up)
      ∧ (c.check.isSome → c.state = .check)
      ∧ (c.supervision.isSome → c.state = .check)
      ∧ (c.release.isSome → c.state = .check ∧ c.claim = false ∧ c.check = none ∧ c.supervision = none)
      ∧ c.claimWait.isSome = (c.claim && c.state != .check)
      ∧ (c.held = true → c.state = .faulted)
      ∧ (c.unattended = true → c.state = .up)

/-- The ranges of a context's figures (R92, R141). -/
def StrainInRange (s : State) : Prop :=
  ∀ L : Leg, ∀ c : Ctx, s.ctx? L = some c → c.front.strain ≤ 4095 ∧ c.cable.strain ≤ 4095 ∧ c.retry ≤ 7

/-- A ring holds at most the ring depth of records, with consecutive interval numbers, the newest that of the last
closed interval (R168). -/
def RingsInOrder (s : State) : Prop :=
  ∀ L : Leg, ∀ c : Ctx, s.ctx? L = some c →
    c.ring.length ≤ s.image.depth ∧
      c.ring.map Record.interval =
        (List.range c.ring.length).map fun i => s.interval - BitVec.ofNat 16 (c.ring.length - i)

/-! ## Captures -/

/-- No slot at or above the slot count is in use, and every record of a capture lies in its window (R174, R178). -/
def CapturesInWindow (s : State) : Prop :=
  ∀ i : Fin 8, ∀ c : Capture, s.slot i = some c →
    i.val < s.slotCount ∧ ∀ r ∈ c.records, r.interval ∈ windowOf s.image c.t

/-- A slot in use lies below the slot count and holds a capture of a context of this station, whose records are those of
consecutive intervals of its window, from its first interval on; a FILLING one next awaits the record of the open interval
(R174, R177 to R179).  `skip` counts the missing intervals at the window's front. -/
def CapturesInOrder (s : State) : Prop :=
  ∀ i : Fin 8, ∀ c : Capture, s.slot i = some c →
    let window := windowOf s.image c.t
    i.val < s.slotCount ∧ (s.ctx? c.leg).isSome = true ∧ ∃ skip : Nat,
      skip + c.records.length ≤ window.length ∧ c.first = window[skip]?
        ∧ c.records.map Record.interval = (window.drop skip).take c.records.length
        ∧ (c.state = .filling → window[skip + c.records.length]? = some s.interval)

/-- The image in its ranges, the contexts of the plan, and rings and captures in order: what history memory holds. -/
def HistoryInOrder (s : State) : Prop := s.image.InRange ∧ ContextsOfPlan s ∧ RingsInOrder s ∧ CapturesInOrder s

/-! ## The peer line -/

/-- Messages stand in their queue in joining order, and the next joining order is above all of them (R120). -/
def JoinsInOrder (s : State) : Prop :=
  ∀ cls : MsgClass, (s.line.queue cls).Pairwise (fun x y => x.join < y.join)
    ∧ ∀ m ∈ s.line.queue cls, m.join < s.line.nextJoin

/-- The capacities of R116, and one own FETCH at most in the bulk queue and at its entry (R118, R192). -/
def QueuesWithinCapacity (s : State) : Prop :=
  s.line.urgent.length ≤ 2 ∧ s.line.bulk.length ≤ 4
    ∧ (s.line.status.filter fun m => isBeacon m.body).length ≤ 1
    ∧ (∀ L : Leg, (s.line.status.filter fun m => isSleep L m.body).length ≤ 1)
    ∧ (s.line.bulk.filter fun m => isFetch m.body).length + (if s.line.heldFetch.isSome then 1 else 0) ≤ 1

/-- The out-of-plan condition as the peer line interface keeps it (R3): nothing queued, owed, held or in an attempt, and
the beacon timer never started. -/
def Line.silent (l : Line) : Prop :=
  l.urgent = [] ∧ l.status = [] ∧ l.bulk = [] ∧ l.attempt = none ∧ l.owedFetch = none ∧ l.heldFetch = none
    ∧ (∀ L : Leg, l.owedSleep.get L = none) ∧ l.beaconTimer = none

/-- A context held by R3: FAULTED, cause PLAN_MISMATCH, held, without a claim or a running timer. -/
def Ctx.heldOutOfPlan (c : Ctx) : Prop :=
  c.state = .faulted ∧ c.cause = .planMismatch ∧ c.held = true ∧ c.claim = false
    ∧ c.solo = none ∧ c.faultHold = none ∧ c.dormancy = none ∧ c.up = none ∧ c.claimWait = none ∧ c.check = none
    ∧ c.supervision = none ∧ c.release = none

/-- An out-of-plan station places no message in a queue and its context stays held in PLAN_MISMATCH (R3). -/
def OutOfPlanKeepsQuiet (s : State) : Prop :=
  s.phase = .running → s.outOfPlan = true →
    s.line.silent ∧ ∀ L : Leg, ∀ c : Ctx, s.ctx? L = some c → c.heldOutOfPlan

/-- The roster is in ascending order of station number and holds no entry for the own number (R127). -/
def RosterInOrder (s : State) : Prop :=
  s.roster.Pairwise (fun a b => a.station.val < b.station.val) ∧ ∀ e ∈ s.roster, e.station ≠ s.station

/-! ## The management port -/

/-- The attention output is asserted only while an enabled cause is set, and is asserted then unless the throttle runs
(R199). -/
def AttentionFollowsCauses (s : State) : Prop :=
  (s.port.asserted = true → s.port.wants = true) ∧
    (s.port.wants = true → s.port.throttle = none → s.port.asserted = true)

/-- The collection unit holds at most 32 buffer entries and two timeouts, and its answer timer runs only in RUNNING
(R190, R192). -/
def CollectionInBounds (s : State) : Prop :=
  s.coll.buffer.length ≤ 32 ∧ s.coll.timeouts ≤ 2 ∧ (s.coll.answer.isSome = true → s.coll.state = .running)

end Sys2Proof.Machine
end

