-- ==== Sys2Proof/Machine/Frames.lean ====
section
/-! DEFINITION. Frames: what an event of one leg context leaves as it was; what an accepted image, a marker, a message read, a
far result and a change of readiness do, and what a capture opens with, in the words of the rules. -/

namespace Sys2Proof.Machine

/-- The peer line interface but for what a context may queue: the urgent queue gains ALERTs at its end, the status queue
keeps the joining order and the waits of its messages (R116, R117, R122). -/
structure Line.SameButQueued (a b : Line) : Prop where
  rest : b = { a with
    urgent := b.urgent, status := b.status, nextJoin := b.nextJoin, owedBeacon := b.owedBeacon
    owedSleep := b.owedSleep, spacingTimer := b.spacingTimer, alertDrops := b.alertDrops }
  urgent : a.urgent <+: b.urgent
  status : (a.status.map fun m => (m.join, m.waits)) <+: b.status.map fun m => (m.join, m.waits)

/-- The management port but for its causes, which only join the set, and the output that follows them (R198, R199). -/
structure Port.SameButCauses (a b : Port) : Prop where
  rest : b = { a with causes := b.causes, asserted := b.asserted, throttle := b.throttle }
  causes : a.causes &&& b.causes = a.causes

/-- Nothing outside context `L` has changed but the clock, the messages and causes it hands on, and the free or
retrieved slots its captures take: contexts do not read one another (chapter 8), and the rules name no other effect. -/
structure LegFrame (L : Leg) (s t : State) : Prop where
  rest : t = { s with
    now := t.now, lanes := t.lanes, tuners := t.tuners, checkers := t.checkers, splits := t.splits
    merges := t.merges, ctxs := t.ctxs, slots := t.slots, nextOrder := t.nextOrder, overflow := t.overflow
    lost := t.lost, line := t.line, port := t.port }
  line : s.line.SameButQueued t.line
  port : s.port.SameButCauses t.port
  ctxs : ∀ M : Leg, M ≠ L → t.ctx? M = s.ctx? M
  lanes : ∀ l : Lane, s.owner l ≠ some L → t.lane l = s.lane l
  tuners : ∀ k : FLane, s.owner (frontLane k) ≠ some L → t.tuner k = s.tuner k
  cables : ∀ k : CLane, s.owner (cableLane k) ≠ some L →
    t.checker k = s.checker k ∧ t.split k = s.split k ∧ t.merge k = s.merge k
  slots : ∀ (i : Fin 8) (c : Capture), s.slot i = some c → c.state ≠ .retrieved → t.slot i = some c

/-! ## An accepted image (R4, R7 to R13) -/

/-- A tap triple as three stored bytes load: each tap in its range, post lowered to the sum limit (R7, R8). -/
def heldTaps (pre main post : Nat) : Triple Nat :=
  let p := min pre 12
  let m := max 20 (min main 44)
  ⟨p, m, min (min post 16) (56 - p - m)⟩

/-- The loaded image of a station with these straps, field by field, from the bytes of an accepted one (R4, R7 to R12). -/
structure LoadsAs (st : Straps) (bs : List Byte) (img : Image) : Prop where
  frontClass : img.frontClass = if imgByte bs 1 = 1 ∧ st.role = .leg ∧ st.plan ≠ .p1x1 then 1 else 2
  frontInvert : img.frontInvert = byteOf (imgByte bs 2)
  cableInvert : img.cableInvert = byteOf (imgByte bs 3)
  reverse : img.reverse = true ↔ imgByte bs 4 = 1
  taps : ∀ k : Fin 8,
    img.cableTaps.get k = heldTaps (imgByte bs (5 + 3 * k.val)) (imgByte bs (6 + 3 * k.val)) (imgByte bs (7 + 3 * k.val))
      ∧ img.frontTaps.get k
        = heldTaps (imgByte bs (29 + 3 * k.val)) (imgByte bs (30 + 3 * k.val)) (imgByte bs (31 + 3 * k.val))
  k : img.k = min (imgByte bs 53) 7
  depth : img.depth =
    if imgByte bs 54 = 0 then 16
    else if imgByte bs 54 = 1 ∨ (st.role = .trunk ∧ st.plan = .p1x8) then 32 else 64
  window :
    let limit := if imgByte bs 54 = 0 then 16 else 32
    img.capA = min (min (imgByte bs 56) 24) (limit - 1 - min (imgByte bs 55) 24)
      ∧ img.capB = min (min (imgByte bs 55) 24) (limit - 1 - img.capA)
  lineDelay : img.lineDelay = min (imgByte bs 57) 3
  beaconCode : img.beaconCode = min (imgByte bs 58) 3
  penalty : ∀ t : Fin 18, img.penalty.get t = imgByte bs (59 + t.val)
  decay : img.decay = imgByte bs 77
  fail : img.fail = max 2 (min (imgWord bs 80) 4095)
  warn : img.warn = min (max 1 (imgWord bs 78)) (img.fail - 1)
  hyst : img.hyst = min (max 1 (imgWord bs 82)) img.warn
  markTail : img.markTail = min (imgByte bs 84) 17
  strainFault : img.strainFault = true ↔ imgByte bs 85 = 1
  originMask : img.originMask = BitVec.ofNat 4 (imgByte bs 86)
  windows : ∀ w : Fin 4,
    let at' := 87 + 4 * w.val
    img.windows.get w = {
      enable := imgByte bs at' % 2 == 1
      action := if imgByte bs at' / 2 % 4 = 0 then .ignore else if imgByte bs at' / 2 % 4 = 2 then .captureAll else .capture
      base := BitVec.ofNat 12 (imgByte bs (at' + 1) * 16 + imgByte bs (at' + 2) / 16)
      mask := BitVec.ofNat 12 (imgByte bs (at' + 2) % 16 * 256 + imgByte bs (at' + 3)) }
  dormCode : img.dormCode = min (imgByte bs 103) 3
  soloCode : img.soloCode = min (imgByte bs 104) 3
  indicator : img.indicator =
    ([.off, .on, .up, .anyUp, .good, .fault, .attention] : List IndicatorMode).getD (imgByte bs 105) .up
  checkLimit : img.checkLimit = imgWord bs 106

/-- The adjustment set of an accepted image, bit by bit: which kinds its stored bytes call for (R7 to R13). -/
structure AdjustsAs (st : Straps) (bs : List Byte) (adjust : BitVec 9) : Prop where
  rangeClamp : adjust.getLsbD 0 = true ↔
    (imgByte bs 1 ≠ 1 ∧ imgByte bs 1 ≠ 2) ∨ 1 < imgByte bs 4
      ∨ (∃ k : Fin 16, 12 < imgByte bs (5 + 3 * k.val) ∨ imgByte bs (6 + 3 * k.val) < 20 ∨ 44 < imgByte bs (6 + 3 * k.val)
          ∨ 16 < imgByte bs (7 + 3 * k.val))
      ∨ 7 < imgByte bs 53 ∨ 2 < imgByte bs 54 ∨ 24 < imgByte bs 55 ∨ 24 < imgByte bs 56 ∨ 3 < imgByte bs 57
      ∨ 3 < imgByte bs 58 ∨ (∃ i ∈ [78, 80, 82], imgWord bs i = 0 ∨ 4095 < imgWord bs i)
      ∨ 17 < imgByte bs 84 ∨ 1 < imgByte bs 85 ∨ 15 < imgByte bs 86
      ∨ (∃ w : Fin 4, 8 ≤ imgByte bs (87 + 4 * w.val) ∨ imgByte bs (87 + 4 * w.val) / 2 % 4 = 3)
      ∨ 3 < imgByte bs 103 ∨ 3 < imgByte bs 104 ∨ 6 < imgByte bs 105
  tapSum : adjust.getLsbD 1 = true ↔
    ∃ k : Fin 16, 56 < min (imgByte bs (5 + 3 * k.val)) 12 + max 20 (min (imgByte bs (6 + 3 * k.val)) 44)
      + min (imgByte bs (7 + 3 * k.val)) 16
  frontClass : adjust.getLsbD 2 = true ↔ imgByte bs 1 = 1 ∧ (st.role = .trunk ∨ st.plan = .p1x1)
  ftRaised : adjust.getLsbD 3 = true ↔ imgWord bs 80 ≤ 1
  wtLowered : adjust.getLsbD 4 = true ↔ max 2 (min (imgWord bs 80) 4095) ≤ max 1 (min (imgWord bs 78) 4095)
  hyLowered : adjust.getLsbD 5 = true ↔
    min (max 1 (imgWord bs 78)) (max 2 (min (imgWord bs 80) 4095) - 1) < max 1 (min (imgWord bs 82) 4095)
  windowLimit : adjust.getLsbD 6 = true ↔ 32 < min (imgByte bs 55) 24 + min (imgByte bs 56) 24 + 1
  windowDepth : adjust.getLsbD 7 = true ↔
    imgByte bs 54 = 0 ∧ 16 < min (imgByte bs 55) 24 + min (imgByte bs 56) 24 + 1
  depthReduced : adjust.getLsbD 8 = true ↔ 2 ≤ imgByte bs 54 ∧ st.role = .trunk ∧ st.plan = .p1x8

/-! ## A marker at the gearbox (R72 to R75) -/

/-- A split that goes back to UNPRIMED, a lost prime counted. -/
def Split.lost (x : Split) : Split :=
  { prime := .unprimed, bad := 0, losses := if x.prime = .primed then satInc 65535 x.losses else x.losses }

/-- A merge that goes back to UNPRIMED, a lost prime counted, with the pair skew and the half pair it keeps. -/
def Merge.lost (pairSkew : Option Nat) (half : Option (Bool × Nat)) (x : Merge) : Merge :=
  { prime := .unprimed, badEven := 0, badOdd := 0, pairSkew := pairSkew, half := half
    losses := if x.prime = .primed then satInc 65535 x.losses else x.losses }

/-- A split at an expected marker position of its lane (R72, R73); `counts`: the cable segment was ALIGNED and still is. -/
structure SplitAtMarker (good counts : Bool) (x y : Split) : Prop where
  takes : x.prime = .unprimed → good = true → counts = true → y = { x with prime := .priming, bad := 0 }
  waits : x.prime = .unprimed → good = false ∨ counts = false → y = x
  primes : x.prime = .priming → good = true → y = { x with prime := .primed, bad := 0 }
  misses : x.prime = .priming → good = false → y = x.lost
  stands : x.prime = .primed → good = true → y = { x with bad := 0 }
  first : x.prime = .primed → good = false → x.bad = 0 → y = { x with bad := 1 }
  second : x.prime = .primed → good = false → x.bad ≠ 0 → y = x.lost

/-- A merge at a good marker that arrives at `arrival` on its even or odd lane, with the pair skew `skew` where both lanes are
marker-locked (R74, R75); `counts`: the lane was marker-locked before. -/
structure MergeAtGood (odd counts : Bool) (arrival : Nat) (skew : Option Nat) (x y : Merge) : Prop where
  apart : skew = none → y = { x with pairSkew := none }
  wide : ∀ v : Nat, skew = some v → 192 < v → y = x.lost (some v) (if counts then some (odd, arrival) else none)
  near : ∀ v : Nat, skew = some v → v ≤ 192 →
    let x' : Merge := { x with
      pairSkew := some v, badEven := if odd then x.badEven else 0, badOdd := if odd then 0 else x.badOdd }
    let complete := ∃ p : Nat, x.half = some (!odd, p) ∧ arrival ≤ p + 192 ∧ p ≤ arrival + 192
    (counts = false → y = x') ∧
    (counts = true → ¬ complete → y = { x' with half := some (odd, arrival) }) ∧
    (counts = true → complete →
      (x.prime = .unprimed → y = { x' with prime := .priming, half := none }) ∧
      (x.prime = .priming → y = { x' with prime := .primed, half := none, badEven := 0, badOdd := 0 }) ∧
      (x.prime = .primed → y = { x' with half := none }))

/-- A merge at a bad marker on its even or odd lane, which stays marker-locked (R74, R75). -/
structure MergeAtBad (odd : Bool) (x y : Merge) : Prop where
  waits : x.prime = .unprimed → y = { x with half := none }
  misses : x.prime = .priming → y = x.lost x.pairSkew none
  first : x.prime = .primed → (if odd then x.badOdd else x.badEven) = 0 →
    y = { x with
      half := none, badEven := if odd then x.badEven else 1, badOdd := if odd then 1 else x.badOdd }
  second : x.prime = .primed → (if odd then x.badOdd else x.badEven) ≠ 0 → y = x.lost x.pairSkew none

/-- The shorter way round between two positions of a pair (R64, R74). -/
def pairArc (p q : Nat) : Nat := min ((p + 17408 - q) % 17408) ((q + 17408 - p) % 17408)

/-- What a marker read at the expected position of lane `l` of context `L` does at the gearbox; `good` is the arrival of a
good one. -/
structure GearAtMarker (l : Lane) (L : Leg) (good : Option Nat) (s t : State) : Prop where
  ratio1 : s.gear = false → t.splits = s.splits ∧ t.merges = s.merges
  /-- A front lane acts on the merge of its pair. -/
  front : s.gear = true → isFront l = true →
    let other := s.lane ⟨if l.val % 2 = 1 then l.val - 1 else l.val + 1, by split <;> omega⟩
    t.splits = s.splits ∧ ∀ j : CLane,
      if j.val ≠ l.val / 2 then t.merge j = s.merge j
      else match good with
        | some arrival => MergeAtGood (l.val % 2 == 1) ((s.lane l).lock == .inLock) arrival
            (if other.lock = .inLock then some (pairArc (t.lane l).pos other.pos) else none) (s.merge j) (t.merge j)
        | none =>
          if (s.lane l).lock ≠ .inLock then t.merge j = s.merge j
          else if (s.lane l).badRun < 3 then MergeAtBad (l.val % 2 == 1) (s.merge j) (t.merge j)
          else t.merge j = (s.merge j).lost none none
  /-- A cable lane acts on its split; the segment's return to SEARCH acts on all splits of the context. -/
  cable : s.gear = true → isFront l = false →
    let was := (s.ctx L).cable.align = .aligned
    let still := (t.ctx L).cable.align = .aligned
    t.merges = s.merges ∧ ∀ j : CLane,
      if was ∧ ¬ still then t.split j = if s.owner (cableLane j) = some L then (s.split j).lost else s.split j
      else if cableLane j = l ∧ (good ≠ none ∨ ((s.lane l).lock = .inLock ∧ (s.lane l).badRun < 3)) then
        SplitAtMarker good.isSome (decide (was ∧ still)) (s.split j) (t.split j)
      else t.split j = s.split j

/-! ## A message read by a receiver -/

/-- The station reads the message with these bits as a receiver: it is the one under way, of whose bits some are read, or its
start mark falls on a line that is idle for the station (R101, R106). -/
def Reads (wire : List Bool) (s : State) : Prop :=
  s.phase = .running ∧ s.line.mode ≠ .stuck ∧ s.line.attempt = none ∧ s.line.abortMark = none
    ∧ if s.line.underWay then s.line.heard <+: wire else 8 ≤ s.line.idleRun

/-- The moment of the start mark: that of the message under way, else now (R101). -/
def State.markAt (s : State) : Nat := if s.line.underWay then s.line.startMark.getD s.now else s.now

/-- The moment a message with a body of `len` bytes has been read, 36 + 9L bit times from its start mark (R102). -/
def State.heardBy (s : State) (len : Nat) : Nat := max s.now (s.markAt + 1000 * (36 + 9 * len))

/-- A message with a body of `len` bytes has been read and counted: one received, one wait for each queued message, both
runs 0 (R101, R106, R115, R119). -/
def State.counted (s : State) (len : Nat) : State :=
  { s with
    now := s.heardBy len
    line := { s.line.countWaits with
      received := satInc 65535 s.line.received, startMark := some s.markAt
      underWay := false, idleRun := 0, domRun := 0, heard := [] } }

/-- The FETCH is with the interface: queued, owed while the one it replaces is in an attempt, or held at the entry
(R118). -/
def Line.handsOut (f : Fetch) (l : Line) : Prop :=
  (∃ m ∈ l.bulk, m.body = .fetch f) ∨ l.owedFetch = some f ∨ l.heldFetch = some f

/-! ## Readiness at a context (R76 to R78, R143, R144, R146, R149) -/

/-- A LEG_DOWN alert of context `L` is queued, where it is originated and there is room (R116, R163). -/
def AlertsLegDown (L : Leg) (s t : State) (cause : Cause) : Prop :=
  s.originates .legDown = true → s.outOfPlan = false → s.line.urgent.length < 2 →
    ∃ m ∈ t.line.urgent, m.body = .alert L (8 + causeCode cause) 0

/-- Context `a` has become `b` by an event that leaves the readiness conditions as they stand in `t`. -/
structure TakesReadiness (L : Leg) (s t : State) (a b : Ctx) : Prop where
  cableOk : b.cableOk = (t.cableFail L).isNone
  frontOk : b.frontOk = (t.frontFail L).isNone
  rises : a.state = .rising → b.cableOk = true → b.frontOk = true → ¬ (a.cableOk = true ∧ a.frontOk = true) →
    if a.far.carriesUp then b.state = .up ∧ b.cause = .none ∧ b.unattended = false
      ∧ b.up = some (t.now + 10000000000) ∧ b.solo = none
    else b.state = .ready ∧ b.cause = a.cause ∧ b.solo = some (t.now + s.soloWait)
  staysRising : a.state = .rising →
    b.cableOk = false ∨ b.frontOk = false ∨ (a.cableOk = true ∧ a.frontOk = true) → b.state = .rising ∧ b.cause = a.cause
  falls : a.state = .ready → a.far.differs = false →
    (a.cableOk = true ∧ b.cableOk = false) ∨ (a.frontOk = true ∧ b.frontOk = false) →
    b.state = .rising ∧ b.cause = a.cause ∧ b.retry = a.retry ∧ b.solo = none
  faults : a.state = .up →
    (a.cableOk = true ∧ b.cableOk = false) ∨ (a.frontOk = true ∧ b.frontOk = false) →
    b.state = .faulted
      ∧ (if a.cableOk = true ∧ b.cableOk = false then t.cableFail L else t.frontFail L) = some b.cause
      ∧ b.retry = satInc 7 a.retry ∧ b.held = decide (b.retry = 7) ∧ b.solo = none ∧ b.up = none ∧ b.unattended = false
      ∧ (b.retry < 7 → b.faultHold = some (t.now + 50000000)) ∧ AlertsLegDown L s t b.cause
  stands : (a.state = .ready ∨ a.state = .up) →
    (a.cableOk = true → b.cableOk = true) → (a.frontOk = true → b.frontOk = true) → b.state = a.state ∧ b.cause = a.cause
  ignores : a.state = .dormant ∨ a.state = .faulted ∨ a.state = .check → b.state = a.state ∧ b.cause = a.cause
  notes : b.state ≠ a.state → t.port.causes &&& Attn.legChange.mask = Attn.legChange.mask

/-! ## A lane that leaves IN_LOCK or LOCKED (R26, R27, R36, R54, R62, R65, R66, R69, R72 to R75) -/

/-- A segment one of whose lanes has left IN_LOCK: SEARCH without a skew, the skew flag clear; a return from ALIGNED is
counted and sets the loss flag of the open interval (R65, R66, R69). -/
def Seg.laneLost (x : Seg) : Seg :=
  { x with
    align := .search, skew := none, skewFlag := false
    alignLosses := if x.align = .aligned then satInc 65535 x.alignLosses else x.alignLosses
    acc := { x.acc with loss := x.acc.loss || x.align == .aligned } }

/-- What an event on lane `l` does to the segments of its context but for the reasons of readiness: its own one loses the
lane where `lost` holds and stays as it is elsewhere, and the other one stays. -/
structure SegsAtLane (l : Lane) (lost : Bool) (a b : Ctx) : Prop where
  own : let x := a.seg (segmentOf l)
    b.seg (segmentOf l) = { (if lost then x.laneLost else x) with lastReason := (b.seg (segmentOf l)).lastReason }
  other : ∀ g : Segment, g ≠ segmentOf l → b.seg g = { a.seg g with lastReason := (b.seg g).lastReason }

/-- What the receiver of lane `l` of context `L` takes with it when it leaves LOCKED. -/
structure LeavesLocked (l : Lane) (L : Leg) (s t : State) : Prop where
  lock : (t.lane l).lock = .hunt
  losses : (t.lane l).markerLosses =
    if (s.lane l).lock = .inLock then satInc 65535 (s.lane l).markerLosses else (s.lane l).markerLosses
  /-- The wish and settled are withdrawn; TUNING and CLOSING go back to WAITING with the own taps. -/
  tuner : ∀ k : FLane, l = frontLane k →
    let x := s.tuner k
    let y := t.tuner k
    y.wish = none ∧ y.settled = false ∧ y.taps = x.taps ∧ y.reports = x.reports ∧
      if x.st = .tuning ∨ x.st = .closing then y.st = .waiting ∧ y.tuneTimer = none ∧ y.req = none else y.st = x.st
  checker : ∀ k : CLane, l = cableLane k → (s.checker k).armed = true → (t.checker k).count = 65535
  merges : ∀ j : CLane, t.merge j =
    if s.gear = true ∧ isFront l = true ∧ (s.lane l).lock = .inLock ∧ j.val = l.val / 2 then (s.merge j).lost none none
    else s.merge j
  splits : ∀ j : CLane, t.split j =
    if s.gear = true ∧ isFront l = false ∧ (s.lane l).lock = .inLock ∧ (s.ctx L).cable.align = .aligned
        ∧ s.owner (cableLane j) = some L then (s.split j).lost
    else s.split j
  ctx : ∀ c : Ctx, s.ctx? L = some c → ∃ c' : Ctx, t.ctx? L = some c' ∧ TakesReadiness L s t c c'
    ∧ SegsAtLane l ((s.lane l).lock == .inLock) c c'

/-! ## A far result at a context (R142, R144, R147, R151, R158 to R162) -/

/-- Context `a` has become `b` at the handing of the far result `r`; the timers it starts run from `t.now`. -/
structure TakesFar (L : Leg) (s t : State) (r : FarResult) (a b : Ctx) : Prop where
  kept : b.far = r
  notes : b.state ≠ a.state → t.port.causes &&& Attn.legChange.mask = Attn.legChange.mask
  /-- DORMANT keeps it, and so does an out-of-plan station (R3, R151). -/
  sleeps : a.state = .dormant ∨ s.outOfPlan = true → b = { a with far := r }
  /-- A plan that differs (R151). -/
  held : s.outOfPlan = false → r.differs = true → a.mismatchHeld = true → b = { a with far := r }
  mismatch : a.state ≠ .dormant → s.outOfPlan = false → r.differs = true → a.mismatchHeld = false →
    b.state = .faulted ∧ b.cause = .planMismatch ∧ b.held = true ∧ b.retry = a.retry ∧ b.faultHold = a.faultHold
      ∧ b.solo = none ∧ b.up = none ∧ b.dormancy = none ∧ b.unattended = false ∧ (a.state = .check → b.release = none)
      ∧ (a.state = .up → AlertsLegDown L s t .planMismatch)
      ∧ (if a.state = .check ∧ a.release = none then
          b.outcome = some .aborted ∧ b.claim = false ∧ b.check = none ∧ b.supervision = none
            ∧ t.port.causes &&& Attn.checkDone.mask = Attn.checkDone.mask
        else b.outcome = a.outcome ∧ b.claim = a.claim)
  /-- The end of a PLAN_MISMATCH hold (R151); without an own claim that the result meets the context stays in RISING, a far
  claim at a context held at the handing being no claim to follow (R158, log 14). -/
  released : s.outOfPlan = false → r.differs = false → a.mismatchHeld = true → s.frontLanes L ≠ [] →
    b.cause = .planMismatch ∧ b.held = false ∧ b.retry = a.retry
      ∧ (∀ k ∈ s.frontLanes L, (t.tuner k).taps = s.image.frontTaps.get k)
      ∧ (a.claim = false ∨ (r.claims = false ∧ r.inCheck = false)
            ∨ (r.claims = true ∧ s.station.val ≤ (s.farStation L).val) →
          b.state = .rising ∧ b.claim = a.claim ∧ b.outcome = a.outcome ∧ b.claimWait = a.claimWait
            ∧ (s.frontPresent L = false → b.dormancy = some (t.now + s.dormancyDelay)))
  /-- The result that ends the hold carries a claim before which the own one yields (R159). -/
  releasedYields : s.outOfPlan = false → a.mismatchHeld = true → s.frontLanes L ≠ [] → r.claims = true → a.claim = true →
    (s.farStation L).val < s.station.val →
    b.state = .check ∧ b.role = some .follower ∧ b.outcome = some .yielded ∧ b.claim = false ∧ b.claimWait = none
      ∧ b.faultHold = none ∧ b.dormancy = none
      ∧ b.supervision = (if r.inCheck then a.supervision else some (t.now + 4 * s.beaconPeriod))
      ∧ t.port.causes &&& Attn.checkDone.mask = Attn.checkDone.mask
  /-- The result that ends the hold is the CHECK the own claim waits for (R160). -/
  releasedClaims : s.outOfPlan = false → a.mismatchHeld = true → s.frontLanes L ≠ [] → r.claims = false → a.claim = true →
    r.inCheck = true →
    b.state = .check ∧ b.role = some .claimant ∧ b.outcome = none ∧ b.claim = true ∧ b.claimWait = none
      ∧ b.faultHold = none ∧ b.dormancy = none ∧ b.check = some (t.now + 100000000)
      ∧ ∀ k ∈ s.cableLanes L, (t.checker k).armed = true
  /-- In CHECK (R160, R161). -/
  releaseStands : s.outOfPlan = false → a.state = .check → a.release ≠ none → r.inCheck = true → b = { a with far := r }
  releaseEnds : s.outOfPlan = false → a.state = .check → a.release ≠ none → r.inCheck = false → r.differs = false →
    b.release = none ∧ b.outcome = a.outcome ∧ b.role = a.role ∧ b.patternCounts = a.patternCounts
      ∧ b.state = if a.frontOk && a.cableOk then (if r.carriesUp then .up else .ready) else .rising
  checkMeets : s.outOfPlan = false → a.state = .check → a.release = none → r.inCheck = true →
    if a.role = some .follower ∧ a.check = none then
      b = { a with far := r, supervision := none, check := some (t.now + 100000000) }
        ∧ ∀ k ∈ s.cableLanes L, (t.checker k).armed = true
    else b = { a with far := r, supervision := none }
  checkWaits : s.outOfPlan = false → a.state = .check → a.release = none → r.inCheck = false → r.differs = false →
    b = { a with far := r, supervision := if a.supervision = none then some (t.now + 4 * s.beaconPeriod)
                                          else a.supervision }
  /-- A far claim (R158, R159). -/
  follows : s.outOfPlan = false → a.state.awake = true → a.mismatchHeld = false → r.claims = true → a.claim = false →
    b = { a with
      far := r, state := .check, role := some .follower, outcome := none
      solo := none, faultHold := none, up := none, dormancy := none, claimWait := none, unattended := false, held := false
      supervision := if r.inCheck then a.supervision else some (t.now + 4 * s.beaconPeriod) }
  yields : s.outOfPlan = false → a.state.awake = true → a.mismatchHeld = false → r.claims = true → a.claim = true →
    (s.farStation L).val < s.station.val →
    b = { a with
      far := r, state := .check, role := some .follower, outcome := some .yielded, claim := false
      solo := none, faultHold := none, up := none, dormancy := none, claimWait := none, unattended := false, held := false
      supervision := if r.inCheck then a.supervision else some (t.now + 4 * s.beaconPeriod) }
      ∧ t.port.causes &&& Attn.checkDone.mask = Attn.checkDone.mask
  keepsClaim : s.outOfPlan = false → a.state.awake = true → a.mismatchHeld = false → r.claims = true → a.claim = true →
    s.station.val ≤ (s.farStation L).val → b = { a with far := r }
  /-- The own claim is met (R160). -/
  claims : s.outOfPlan = false → a.state.awake = true → a.mismatchHeld = false → r.claims = false → a.claim = true →
    r.inCheck = true →
    b = { a with
      far := r, state := .check, role := some .claimant, outcome := none, check := some (t.now + 100000000)
      solo := none, faultHold := none, up := none, dormancy := none, claimWait := none, unattended := false, held := false }
      ∧ ∀ k ∈ s.cableLanes L, (t.checker k).armed = true
  /-- Its leg state, or silence (R144, R147); RISING and FAULTED keep it. -/
  reads : s.outOfPlan = false → a.state.awake = true → a.mismatchHeld = false → r.differs = false → r.claims = false →
    (a.claim = false ∨ r.inCheck = false) →
    b = match a.state, r with
      | .ready, .fresh f =>
        if f.state = .ready ∨ f.state = .up then
          { a with far := r, state := .up, cause := .none, solo := none, up := some (t.now + 10000000000)
                   unattended := false }
        else { a with far := r, solo := some (t.now + s.soloWait) }
      | .up, .fresh f =>
        if f.state = .ready ∨ f.state = .up then { a with far := r, unattended := false }
        else { a with far := r, state := .ready, up := none, unattended := false, solo := some (t.now + s.soloWait) }
      | .up, _ => { a with far := r, unattended := true }
      | _, _ => { a with far := r }

/-! ## What a capture opens with (R177, R178) -/

/-- With `ring` the records of the intervals before the open one, newest last: each interval of the window that lies before
the open one and is retained gives its record, in order; one that is not retained sets TRUNCATED; the first interval is the
first held one, else the first to come. -/
def OpensWith (img : Image) (opened : IntervalNo) (ring : List Record) (c : Capture) : Prop :=
  let window := (List.range (img.capB + img.capA + 1)).map fun i =>
    c.t - BitVec.ofNat 16 img.capB + BitVec.ofNat 16 i
  let back := fun (x : IntervalNo) => (opened - x).toNat
  let past := fun (x : IntervalNo) => decide (1 ≤ back x ∧ back x ≤ 32767)
  let held := window.filter fun x => past x && decide (back x ≤ ring.length)
  let coming := window.filter fun x => !past x
  c.records = held.filterMap (fun x => ring[ring.length - back x]?)
    ∧ (c.truncated = true ↔ ∃ x ∈ window, past x = true ∧ ring.length < back x)
    ∧ c.first = (held ++ coming).head?
    ∧ c.state = if coming = [] then .held else .filling

/-! ## Short words for statements -/

/-- The command by which a message of a kind is received. -/
def receiveOf (k : MsgKind) (sender : Nat) (body : List Byte) (priority : Fin 4) : Instr :=
  match k with
  | .beacon => .beaconReceived sender body priority
  | .alert => .alertReceived sender body priority
  | .hush => .hushReceived sender body priority
  | .wake => .wakeReceived sender body priority
  | .fetch => .fetchReceived sender body priority
  | .parcel => .parcelReceived sender body priority

/-- The command that carries a management request. -/
def Request.command : Request → Instr
  | .readStation => Instr.readStation
  | .readLeg a => Instr.readLeg a
  | .readLane a => Instr.readLane a
  | .readRoster a => Instr.readRoster a
  | .readRecord a b => Instr.readRecord a b
  | .readCapture a b => Instr.readCapture a b
  | .readCollection a => Instr.readCollection a
  | .readAttention => Instr.readAttention
  | .restartLeg a => Instr.restartLeg a
  | .checkSegment a => Instr.checkSegment a
  | .clearCaptures => Instr.clearCaptures
  | .trigger a => Instr.trigger a
  | .collect a b c d => Instr.collect a b c d
  | .setEnables m => Instr.setEnables m
  | .forceCause m => Instr.forceCause m
  | .locate a => Instr.locate a

/-- The joining orders and waits of a queue, in its order. -/
def places (q : List Msg) : List (Nat × Nat) := q.map fun m => (m.join, m.waits)

/-- A cause is in the cause set. -/
def Port.has (p : Port) (a : Attn) : Prop := p.causes &&& a.mask = a.mask

/-- The part with a reply in place of the one held. -/
def State.replied (s : State) (st : Status) (code : Byte) (body : List Byte) : State :=
  { s with port := { s.port with reply := ⟨st, code, body⟩ } }

end Sys2Proof.Machine
end

