-- ==== Sys2Proof/Machine/Layouts.lean ====
section
/-! DEFINITION. The bytes of message bodies and of replies in the words of the rules, for statements: the faults of R105,
byte by byte, and the body of each reading request, field by field in the order and the widths of R196 and R197. -/

namespace Sys2Proof.Machine

/-! ## The faults of a message (R103, R105) -/

/-- Byte `i` of a message body as a number. -/
def bodyByte (body : List Byte) (i : Nat) : Nat := (body.getD i 0).toNat

/-- A leg field of 0 or above 8. -/
def NoLeg (n : Nat) : Prop := n = 0 ∨ 8 < n

/-- The four bytes of a digest with a tail above 17, or a state or grade code out of range. -/
def DigestFault (d : List Byte) : Prop :=
  17 < bodyByte d 0 / 8 ∨ 5 < bodyByte d 0 % 8 ∨ 17 < bodyByte d 1 / 8 ∨ bodyByte d 1 % 4 = 3

/-- The bytes of a PARCEL from byte 4 on are these groups, each a start offset with its digests. -/
def SpellsGroups (rest : List Byte) (groups : List (Byte × List (List Byte))) : Prop :=
  rest = groups.flatMap (fun g => g.1 :: BitVec.ofNat 8 g.2.length :: g.2.flatten)
    ∧ ∀ g ∈ groups, 1 ≤ g.2.length ∧ g.2.length ≤ 4 ∧ ∀ d ∈ g.2, d.length = 4

/-- The faults R105 names for the body of each kind.  The four bits of an ALERT's age hold none above 15. -/
def BodyFault : MsgKind → List Byte → Prop
  | .beacon, b =>
    let s := bodyByte b 0 % 8 + 1
    let leg := fun i => bodyByte b (2 + 2 * i) / 16
    b.length ≠ 2 + 2 * s ∨ (∃ i < s, NoLeg (leg i)) ∨ (∃ i < s, ∃ j < i, leg i = leg j)
      ∨ (∃ i < s, 5 < bodyByte b (2 + 2 * i) / 2 % 8) ∨ (∃ i < s, bodyByte b (3 + 2 * i) / 64 = 3)
      ∨ ∃ i < s, 7 < bodyByte b (3 + 2 * i) % 16
  | .alert, b =>
    b.length ≠ 3 ∨ 8 < bodyByte b 1 / 16 ∨ bodyByte b 1 % 16 ∉ [1, 2, 3, 9, 10, 11, 12, 13, 14, 15]
  | .hush, b => b.length ≠ 1 ∨ NoLeg (bodyByte b 0 / 16)
  | .wake, b => b.length ≠ 1 ∨ NoLeg (bodyByte b 0 / 16)
  | .fetch, b => b.length ≠ 4 ∨ 8 < bodyByte b 0 / 16 ∨ NoLeg (bodyByte b 0 % 16) ∨ bodyByte b 2 % 4 = 3
  | .parcel, b =>
    b.length < 4 ∨ 24 < b.length ∨ 8 < bodyByte b 0 / 16 ∨ NoLeg (bodyByte b 0 % 16)
      ∨ (¬ ∃ gs, SpellsGroups (b.drop 4) gs)
      ∨ (∃ gs, SpellsGroups (b.drop 4) gs ∧ ∃ g ∈ gs, ∃ d ∈ g.2, DigestFault d)
      ∨ (4 < b.length ∧ (bodyByte b 3 / 2 % 2 = 1 ∨ bodyByte b 3 / 8 % 2 = 1))

/-- A message of this kind, sender field and body shows a fault of R105. -/
def FormatError (k : MsgKind) (sender : Nat) (body : List Byte) : Prop := 8 < sender ∨ BodyFault k body

/-! ## Fields of a reply (R197) -/

namespace Wire

/-- A number in `w` bytes, most significant first. -/
def num (w v : Nat) : List Byte := (List.range w).map fun i => BitVec.ofNat 8 (v / 256 ^ (w - 1 - i))

/-- A flag: 0 or 1. -/
def yesNo (b : Bool) : List Byte := [if b then 1 else 0]

/-- A named value: its place, from 0, in the list of the values. -/
def named {α : Type} [DecidableEq α] (values : List α) (x : α) : List Byte := num 1 (values.idxOf x)

/-- An optional field: 0, or 1 and the field. -/
def maybe {α : Type} (field : α → List Byte) (x : Option α) : List Byte :=
  match x with
  | none => [0]
  | some v => 1 :: field v

/-- A list: its length in one byte, then its items. -/
def items {α : Type} (item : α → List Byte) (xs : List α) : List Byte := num 1 xs.length ++ xs.flatMap item

/-- The milliseconds a timer with this deadline still runs, rounded down. -/
def remaining (now deadline : Nat) : List Byte := num 3 ((deadline - now) / 1000000)

/-- The time a timer still runs, absent while it is stopped. -/
def timer (now : Nat) (t : Timer) : List Byte := maybe (remaining now) t

def legState (x : LegState) : List Byte := named [.dormant, .rising, .ready, .up, .faulted, .check] x
def grade (x : Grade) : List Byte := named [.good, .warn, .fail] x
def cause (x : Cause) : List Byte :=
  named [.none, .frontLoss, .cableLoss, .skew, .strain, .planMismatch, .tuning, .gearbox] x
def role (x : Role) : List Byte := named [.trunk, .leg] x
def plan (x : Plan) : List Byte := named [.p1x1, .p1x2, .p1x4, .p1x8] x
def taps (t : Triple Nat) : List Byte := num 1 t.pre ++ num 1 t.main ++ num 1 t.post

end Wire

open Wire

/-! ## READ_STATION: R20, R84, R125, R140, R186, R201 -/

/-- Slots of the station whose state is as asked, `none` standing for FREE. -/
def State.slotsLike (s : State) (state : Option CaptureState) : Nat :=
  (List.finRange 8).countP fun i => decide (i.val < s.slotCount) && decide ((s.slot i).map Capture.state = state)

/-- The body of READ_STATION, 78 bytes.  R20 stands at byte 0, R84 at 16, R125 at 19, R140 at 53, R186 at 56, R201 at 64.
The byte of the line mode is a free value (log 19), and a stopped timer has 0 left (log 20). -/
def stationLayout (s : State) : List Byte :=
  let l := s.line
  role s.straps.role ++ plan s.straps.plan ++ num 1 s.straps.legsel.val ++ num 1 s.station.val ++ yesNo s.outOfPlan
    ++ yesNo s.imageDefaulted ++ yesNo s.imageAdjusted ++ num 2 s.adjust.toNat ++ num 1 s.image.frontClass
    ++ num 1 (contextCount s.straps) ++ num 1 (lanesPerLeg s.straps.plan) ++ num 1 s.image.depth ++ num 1 s.slotCount
    ++ num 1 s.image.capB ++ num 1 s.image.capA
    ++ num 2 s.interval.toNat ++ num 1 s.image.k
    ++ num 2 l.sent ++ num 2 l.received ++ num 2 l.lineErrors ++ num 2 l.failedAttempts ++ num 2 l.retryDiscards
    ++ num 2 l.alertDrops ++ num 2 l.fetchDrops ++ num 2 l.quietEntries ++ num 2 l.stuckEntries ++ num 2 l.slips
    ++ num 2 l.clashes
    ++ [Config.lineModeCode (match l.mode with | .normal => 0 | .quiet => 1 | .stuck => 2)]
    ++ remaining s.now (l.quietTimer.getD 0) ++ num 1 l.consecFails ++ num 1 l.trig.toNat ++ yesNo l.synced ++ yesNo l.clash
    ++ num 1 l.urgent.length ++ num 1 l.status.length ++ num 1 l.bulk.length ++ yesNo l.heldFetch.isSome
    ++ num 1 s.roster.length ++ num 2 s.peerLost
    ++ num 1 s.slotCount ++ num 1 (s.slotsLike none) ++ num 1 (s.slotsLike (some .filling))
    ++ num 1 (s.slotsLike (some .held)) ++ num 1 (s.slotsLike (some .retrieved)) ++ yesNo s.overflow ++ num 2 s.lost
    ++ num 2 s.port.causes.toNat ++ num 2 s.port.enables.toNat ++ yesNo s.port.asserted
    ++ remaining s.now (s.port.throttle.getD 0) ++ yesNo s.port.locate
    ++ named [.off, .on, .up, .anyUp, .good, .fault, .attention] s.image.indicator ++ yesNo s.indicatorLit
    ++ named [.idle, .running, .done, .failed] s.coll.state ++ num 2 s.coll.late

/-! ## READ_LEG: R82, R97, R167 -/

/-- A segment's fields of R82, with H[0..15] as sixteen numbers (log 18) and ALIGNED before SEARCH (log 19). -/
def segLayout (x : Seg) : List Byte :=
  named [.aligned, .search] x.align ++ maybe (num 2) x.skew ++ yesNo x.skewFlag ++ num 2 x.alignLosses
    ++ num 2 x.skewExcess ++ num 3 x.acc.n ++ (List.finRange 16).flatMap (fun k => num 3 (x.acc.h.get k))
    ++ num 3 x.acc.u ++ yesNo x.acc.saturated ++ yesNo x.acc.loss

/-- One cable lane's gearbox fields of R82. -/
def gearLayout (s : State) (j : CLane) : List Byte :=
  named [.unprimed, .priming, .primed] (s.split j).prime ++ num 2 (s.split j).losses
    ++ named [.unprimed, .priming, .primed] (s.merge j).prime ++ num 2 (s.merge j).losses
    ++ maybe (num 2) (s.merge j).pairSkew

/-- A far summary (R136). -/
def farLayout (f : FarSummary) : List Byte :=
  legState f.state ++ grade f.grade ++ yesNo f.cableOk ++ yesNo f.frontOk ++ yesNo f.claim ++ cause f.cause

/-- The body of READ_LEG: R82 with the gearbox group as an optional list (log 18), R97, R167 with the timers in the order
of R141 and the far result by its place in R136 (log 19). -/
def legLayout (s : State) (L : Leg) (c : Ctx) : List Byte :=
  yesNo c.cableOk ++ yesNo c.frontOk ++ maybe cause c.cable.lastReason ++ maybe cause c.front.lastReason
    ++ segLayout c.front ++ segLayout c.cable
    ++ maybe (items (gearLayout s)) (if s.gear then some (s.cableLanes L) else none)
    ++ num 2 c.front.strain ++ grade c.front.grade ++ num 2 c.front.failEntries
    ++ num 2 c.cable.strain ++ grade c.cable.grade ++ num 2 c.cable.failEntries ++ grade c.legGrade
    ++ legState c.state ++ cause c.cause ++ num 1 c.retry ++ yesNo c.held ++ yesNo c.unattended ++ yesNo c.claim
    ++ maybe (named [.claimant, .follower]) c.role ++ maybe (named [.pass, .fail, .aborted, .yielded, .noPartner]) c.outcome
    ++ items (num 2) c.patternCounts
    ++ (match c.far with
      | .absent => num 1 0 ++ maybe farLayout none
      | .stale => num 1 1 ++ maybe farLayout none
      | .planDiffers f => num 1 2 ++ maybe farLayout f
      | .fresh f => num 1 3 ++ maybe farLayout (some f))
    ++ yesNo ((s.frontLanes L).any fun k => (s.lane (frontLane k)).present)
    ++ timer s.now c.solo ++ timer s.now c.faultHold ++ timer s.now c.dormancy ++ timer s.now c.up
    ++ timer s.now c.claimWait ++ timer s.now c.check ++ timer s.now c.supervision ++ timer s.now c.release
    ++ yesNo (c.state == .faulted && c.held && c.cause == .planMismatch)

/-! ## READ_LANE: R37, R58, R63 -/

/-- The status of R37.  What an unused lane has not is a free value (log 22). -/
def laneStatusLayout (s : State) (l : Lane) : List Byte :=
  let u := s.lane l
  let front := isFront l
  let used := (s.owner l).isSome
  let j := laneNo l
  let inUse := match s.straps.role with
    | .trunk => 8
    | .leg => lanesPerLeg s.straps.plan
  yesNo (!front) ++ maybe (fun L : Leg => num 1 L.val) (s.owner l) ++ num 1 (if front then s.image.frontClass else 2)
    ++ maybe id (if front then none
      else if !s.image.reverse then some (num 1 j.val)
      else if j.val < inUse then some (num 1 (inUse - 1 - j.val))
      else some [Config.unusedPosition j])
    ++ yesNo ((if front then s.image.frontInvert else s.image.cableInvert).getLsbD j.val)
    ++ named [.off, .seek, .acquire, .adapt, .locked] u.rx ++ yesNo (if used then u.raw else Config.unusedDetector l)
    ++ yesNo u.present ++ maybe yesNo (if front then some (s.tuner j).settled else none)
    ++ named [.squelch, .tune, .hold, .data, .pattern] u.mode
    ++ (if !front then taps (s.image.cableTaps.get j)
      else if used then taps (s.tuner j).taps
      else [(Config.unusedFrontTaps j).1, (Config.unusedFrontTaps j).2.1, (Config.unusedFrontTaps j).2.2])
    ++ num 2 u.lockEntries ++ num 2 u.lockLosses ++ num 2 u.acquireTimeouts ++ num 2 u.adaptTimeouts
    ++ num 2 u.signalLosses
    ++ maybe (fun ch : Checker => num 2 ch.count ++ yesNo ch.armed) (if front then none else some (s.checker j))

/-- The tuning fields of R58, the closed directions as INC and DEC flags tap by tap (log 18). -/
def tunerLayout (s : State) (k : FLane) : List Byte :=
  let t := s.tuner k
  let req := named [TapReq.hold, .inc, .dec]
  let status := named [TapStatus.notUpdated, .updated, .atMin, .atMax]
  named [.waiting, .tuning, .closing, .done, .failed] t.st ++ yesNo t.unconfirmed ++ taps t.taps
    ++ maybe (fun r : OutRequest => named [.pre, .main, .post] r.tap ++ named [.inc, .dec] r.dir
        ++ named [.pending, .asking, .releasing] r.phase) t.req
    ++ yesNo t.closedInc.pre ++ yesNo t.closedDec.pre ++ yesNo t.closedInc.main ++ yesNo t.closedDec.main
    ++ yesNo t.closedInc.post ++ yesNo t.closedDec.post
    ++ num 1 t.run ++ yesNo t.partnerReady ++ yesNo ((s.lane (frontLane k)).rx == .locked && t.settled)
    ++ req t.seenReqs.pre ++ req t.seenReqs.main ++ req t.seenReqs.post
    ++ named [.none, .preset, .initial] t.seenPreset
    ++ status t.statuses.pre ++ status t.statuses.main ++ status t.statuses.post
    ++ num 1 t.failures ++ num 2 t.abandoned ++ num 2 t.frameErrors

/-- The body of READ_LANE; the tuning fields are an optional group, absent but for a used front lane (log 18). -/
def laneLayout (s : State) (l : Lane) : List Byte :=
  let u := s.lane l
  laneStatusLayout s l
    ++ maybe (tunerLayout s) (if isFront l && (s.owner l).isSome then some (laneNo l) else none)
    ++ (if (s.owner l).isSome then named [.hunt, .found, .inLock] u.lock else [Config.unusedMarkerLock l])
    ++ maybe (num 1) (if u.lock = .inLock then some u.badRun else none) ++ num 2 u.markerLosses ++ num 2 u.mismatches

/-! ## READ_ROSTER, READ_RECORD, READ_CAPTURE, READ_COLLECTION: R140, R169, R181, R194 -/

/-- An entry in the order of the table of R126, its list of summaries among the fields (log 18). -/
def entryLayout (now : Nat) (e : Entry) : List Byte :=
  num 1 e.station.val ++ role e.role ++ plan e.plan ++ num 1 e.frontClass ++ num 1 e.trig.toNat ++ yesNo e.synced
    ++ items (fun x : Summary => num 1 x.leg.val ++ farLayout x.sum) e.summaries
    ++ num 2 (min 65535 ((now - e.heardAt) / 1000000)) ++ named [true, false] e.fresh ++ num 2 e.heard ++ yesNo e.differs

/-- An interval record in the order of 5.3, 32 bytes: the front-in segment at byte 4, the cable-in segment at 18. -/
def recordLayout (r : Record) : List Byte :=
  let seg := fun (x : SegRecord) => num 3 x.n ++ num 1 x.t ++ num 3 x.u ++ num 2 x.dn ++ num 2 x.strain ++ grade x.grade
    ++ yesNo x.loss ++ yesNo x.saturated
  num 2 r.interval.toNat ++ legState r.state ++ grade r.grade ++ seg r.front ++ seg r.cable

/-- A capture's header in the order of R176, the states of a slot as in log 19. -/
def captureLayout (c : Capture) : List Byte :=
  maybe (fun b : Byte => num 1 b.toNat) c.trig ++ num 1 c.origin.val ++ num 1 c.leg.val ++ num 1 c.cause
    ++ num 2 c.t.toNat ++ maybe (fun x : IntervalNo => num 2 x.toNat) c.first ++ num 1 c.records.length
    ++ yesNo c.truncated ++ yesNo c.isLocal ++ yesNo c.unshared
    ++ named [none, some CaptureState.filling, some .held, some .retrieved] (some c.state)

/-- The fields of the collection unit but its timer, the buffer as its number of entries (log 21). -/
def collLayout (c : Collection) : List Byte :=
  named [.idle, .running, .done, .failed] c.state ++ num 1 c.target.val ++ num 1 c.trig.toNat ++ num 1 c.leg.val
    ++ named [.all, .marked, .onset] c.criterion ++ num 1 c.cursor.toNat ++ num 1 c.timeouts
    ++ maybe (named [.last, .none, .notFound]) c.endFlag ++ yesNo c.truncated ++ num 2 c.late ++ num 1 c.buffer.length

/-- A buffer entry: its offset in two's complement, and the four bytes of its digest (R103). -/
def bufferLayout (x : Int × Digest) : List Byte :=
  BitVec.ofInt 8 x.1 :: (num 1 (x.2.frontTail * 8 + [LegState.dormant, .rising, .ready, .up, .faulted, .check].idxOf x.2.state)
    ++ num 1 (x.2.cableTail * 8 + [Grade.good, .warn, .fail].idxOf x.2.grade)
    ++ num 1 (min x.2.frontU 255) ++ num 1 (min x.2.cableU 255))

end Sys2Proof.Machine
end

