-- ==== Sys2Proof/Certificates/Slice0/Obligations.lean ====
section
/-! DEFINITION. The statements for the provers, block by block as the spec orders them. -/

open Sys2Proof Sys2Proof.Machine

/-! ## Steps, power and load -/

/-- A step takes the command at the front of the queue and runs it on the rest. -/
def Obligations.StepRunsFrontCommand : Prop :=
  ∀ (s : State) (c : Instr) (rest : List Instr), s.pending = c :: rest → step s = exec c { s with pending := rest }

/-- On an empty queue one bit time of 1 us passes for a running part (the model's choice, log 3).  A station that drives
nothing reads a recessive bit, which adds to the idle run where no message is under way and is the next bit of one that is; the
bits of an own abort mark, and those of the line in STUCK, are dominant; those of an own attempt read as they are sent, and the
dominant run is that of the bits read.  Before the end of the load nothing is read. -/
def Obligations.EmptyQueueIsOneBitTime : Prop :=
  ∀ s : State, s.pending = [] →
    (s.phase ≠ .running → step s = .next { s with now := s.now + 1000 }) ∧
    (s.phase = .running → s.line.attempt = none → s.line.abortMark = none → s.line.mode ≠ .stuck →
      step s = exec (.messageDiscarded [true]) s ∧
      (s.line.underWay = false → step s = .next { s with
        now := s.now + 1000
        line := { s.line with
          idleRun := if s.line.idleRun < 255 then s.line.idleRun + 1 else s.line.idleRun, domRun := 0 } })) ∧
    (s.phase = .running → s.line.attempt = none → s.line.abortMark ≠ none ∨ s.line.mode = .stuck →
      step s = .next { s with
        now := s.now + 1000
        line := { s.line with
          idleRun := 0, domRun := if s.line.domRun < 255 then s.line.domRun + 1 else s.line.domRun } }) ∧
    (∀ a : Attempt, s.phase = .running → s.line.attempt = some a →
      let read := a.frame.wire.take (36 + 9 * a.frame.body.length - (a.ends - (s.now + 1000)) / 1000)
      ∃ (run : Nat) (before : List Bool),
        step s = .next { s with now := s.now + 1000, line := { s.line with idleRun := 0, domRun := run } }
          ∧ read = before ++ List.replicate run false ∧ (before = [] ∨ before.getLast? = some true))

/-- What the rules say of the part at power-on, block by block. -/
def Obligations.ResetIsStartCondition : Prop :=
  (∀ l : Lane, (State.reset.lane l).rx = .off ∧ (State.reset.lane l).mode = .squelch
      ∧ (State.reset.lane l).present = false ∧ (State.reset.lane l).lockEntries = 0 ∧ (State.reset.lane l).lockLosses = 0
      ∧ (State.reset.lane l).acquireTimeouts = 0 ∧ (State.reset.lane l).adaptTimeouts = 0
      ∧ (State.reset.lane l).signalLosses = 0 ∧ (State.reset.lane l).markerLosses = 0
      ∧ (State.reset.lane l).mismatches = 0)
    ∧ (∀ k : FLane, (State.reset.tuner k).failures = 0 ∧ (State.reset.tuner k).abandoned = 0
      ∧ (State.reset.tuner k).frameErrors = 0)
    ∧ (∀ k : CLane, (State.reset.checker k).count = 0)
    ∧ (∀ L : Leg, State.reset.ctx? L = none)
    ∧ (∀ i : Fin 8, State.reset.slot i = none) ∧ State.reset.overflow = false ∧ State.reset.lost = 0
    ∧ State.reset.line.mode = .normal ∧ State.reset.line.quietTimer = none ∧ State.reset.line.idleRun = 0
    ∧ State.reset.line.domRun = 0 ∧ State.reset.line.consecFails = 0 ∧ State.reset.line.backoff = none
    ∧ State.reset.line.owedBeacon = none ∧ State.reset.line.heldFetch = none ∧ State.reset.line.clash = false
    ∧ State.reset.line.urgent = [] ∧ State.reset.line.status = [] ∧ State.reset.line.bulk = []
    ∧ State.reset.line.beaconTimer = none ∧ State.reset.line.spacingTimer = none ∧ State.reset.line.spacingMark = none
    ∧ State.reset.line.trig = 0 ∧ State.reset.line.synced = false
    ∧ State.reset.line.counts = List.replicate 11 0
    ∧ State.reset.roster = [] ∧ State.reset.peerLost = 0
    ∧ State.reset.coll = ⟨.idle, 0, 0, 1, .all, 0, 0, none, false, [], 0, none⟩
    ∧ State.reset.port.reply = ⟨.unknownRequest, 0, []⟩ ∧ State.reset.port.causes = 0 ∧ State.reset.port.enables = 0
    ∧ State.reset.port.asserted = false ∧ State.reset.port.throttle = none ∧ State.reset.port.locate = false
    ∧ State.reset.indicatorLit = false ∧ State.reset.intervalEnd = none

/-- POWER_ON discards all state, a load under way included; the waiting commands stay.  END_OF_RESET latches the straps
and starts the load; the strap pins have no effect at any other time. -/
def Obligations.PowerOnAndEndOfReset : Prop :=
  ∀ (st : Straps) (s : State),
    exec .powerOn s = .next { State.reset with pending := s.pending } ∧
    (s.phase = .inReset → exec (.endOfReset st) s = .next { s with straps := st, phase := .loading }) ∧
    (s.phase ≠ .inReset → exec (.endOfReset st) s = .next s)

/-- IMAGE_LOAD_END hands over to the blocks: interval 0 opens, the contexts of the plan rise (the one of an out-of-plan
chip is held), used lanes go to SEEK, unused ones stay OFF, front lanes start tuning in WAITING, the line, the roster
and the slots are as they were, and IMAGE_NOTICE tells a defaulted or adjusted image. -/
def Obligations.LoadEndHandsOver : Prop :=
  ∀ (mem : Option (List Byte)) (signals : BitVec 16) (s : State), s.phase = .loading → UntouchedBeforeLoad s →
    ∃ t : State, exec (.imageLoadEnd mem signals) s = .next t
      ∧ t.phase = .running ∧ t.straps = s.straps ∧ t.now = s.now ∧ t.pending = s.pending
      ∧ t.line = s.line ∧ t.roster = [] ∧ t.coll = s.coll ∧ t.slots = s.slots ∧ t.splits = s.splits
      ∧ t.merges = s.merges
      ∧ t.interval = 0 ∧ t.intervalEnd = some (s.now + 16384 * 2 ^ t.image.k)
      ∧ (∀ L : Leg, (t.ctx? L).isSome = holdsLeg s.straps L)
      ∧ (∀ (L : Leg) (c : Ctx), t.ctx? L = some c →
          (if t.outOfPlan then c.state = .faulted ∧ c.cause = .planMismatch ∧ c.held = true ∧ c.dormancy = none
           else c.state = .rising ∧ c.cause = .none ∧ c.held = false
            ∧ c.dormancy = some (s.now + t.dormancyDelay))
          ∧ c.retry = 0 ∧ c.claim = false ∧ c.far = .absent ∧ c.ring = [] ∧ c.cableOk = false ∧ c.frontOk = false
          ∧ c.legGrade = .good ∧ c.front = {} ∧ c.cable = {})
      ∧ (∀ l : Lane, if (t.owner l).isSome
          then (t.lane l).rx = .seek ∧ (t.lane l).present = false
            ∧ (t.lane l).mode = (if isFront l then .tune else .hold)
            ∧ ((t.lane l).seekRun.isSome = true ↔ signals.getLsbD l.val = true)
          else (t.lane l).rx = .off ∧ (t.lane l).mode = .squelch)
      ∧ (∀ k : FLane, (t.tuner k).st = .waiting ∧ (t.tuner k).taps = t.image.frontTaps.get k)
      ∧ (Attn.imageNotice.mask &&& t.port.causes ≠ 0 ↔ t.imageDefaulted = true ∨ t.imageAdjusted = true)
      ∧ t.port.asserted = false

/-- An image is accepted where the memory answers, its check agrees and its mark is 1; it then loads field by field as its
bytes say, each in its range and relation, and the adjustment set tells which bytes did not.  A rejected image gives the
built-in default for the straps, with IMAGE_DEFAULTED and an empty adjustment set. -/
def Obligations.ImageIsTakenOrDefaulted : Prop :=
  ∀ (mem : Option (List Byte)) (signals : BitVec 16) (s : State), s.phase = .loading →
    let accepted := fun (bs : List Byte) => bs.length = 110 ∧ imgByte bs 0 = 1
      ∧ (crcBits ((bs.take 108).flatMap byteBits)).toNat = imgWord bs 108
    ∃ t : State, exec (.imageLoadEnd mem signals) s = .next t
      ∧ ((∀ bs : List Byte, mem = some bs → ¬ accepted bs) →
          t.image = { Image.standard with depth := if s.straps.role = .trunk ∧ s.straps.plan = .p1x8 then 32 else 64 }
          ∧ t.imageDefaulted = true ∧ t.adjust = 0 ∧ t.imageAdjusted = false ∧ t.slotCount = 8)
      ∧ (∀ bs : List Byte, mem = some bs → accepted bs →
          LoadsAs s.straps bs t.image ∧ AdjustsAs s.straps bs t.adjust
          ∧ t.imageDefaulted = false ∧ (t.imageAdjusted = true ↔ t.adjust ≠ 0))

/-- Whatever the one-time memory holds, the loaded image lies within every range and relation of R7 to R12, a trunk's
and a 1X1 leg chip's front class is 2, and eight slots remain.  Every step keeps the image there, and every front lane's own
taps within their ranges and the sum limit. -/
def Obligations.LoadedImageInRange : Prop :=
  (∀ (mem : Option (List Byte)) (signals : BitVec 16) (s : State), s.phase = .loading →
    ∃ t : State, exec (.imageLoadEnd mem signals) s = .next t
      ∧ t.image.InRange
      ∧ ((s.straps.role = .trunk ∨ s.straps.plan = .p1x1) → t.image.frontClass = 2)
      ∧ t.slotCount = min 8 ((512 - contextCount s.straps * t.image.depth) / 32) ∧ t.slotCount = 8
      ∧ (t.imageAdjusted = true ↔ t.adjust ≠ 0)) ∧
  ∀ s t : State, TapsStayInRange s → step s = .next t → TapsStayInRange t

/-! ## Receivers (2.1) -/

/-- A change of the detector output starts one run and cancels the other; a receiver in OFF has no detector. -/
def Obligations.SignalChangeStartsRuns : Prop :=
  ∀ (l : Lane) (s : State),
    ((s.lane l).rx ≠ .off → (s.lane l).raw = false →
      exec (.signalDetectChange l true) s = .next (s.modLane l fun u => { u with
        raw := true, absentRun := none, presentRun := some (s.now + 1000000)
        seekRun := if u.rx = .seek then some (s.now + 1000000) else none })) ∧
    ((s.lane l).rx ≠ .off → (s.lane l).raw = true →
      exec (.signalDetectChange l false) s = .next (s.modLane l fun u => { u with
        raw := false, presentRun := none, seekRun := none, absentRun := some (s.now + 10000) })) ∧
    (∀ p : Bool, (s.lane l).rx = .off → exec (.signalDetectChange l p) s = .next s)

/-- At the end of the 1 ms run the present flag is set.  Where front_present does not change by it, that is all; where
it raises the front_present of a DORMANT context, the context wakes and a WAKE for its leg is queued or owed. -/
def Obligations.PresentFlagSetAfterRun : Prop :=
  ∀ (l : Lane) (L : Leg) (d : Nat) (s : State), (s.lane l).presentRun = some d → s.owner l = some L →
    ((isFront l = false ∨ s.frontPresent L = true) →
      exec (.presentFlagSet l) s = .next (({ s with now := max s.now d } : State).modLane l fun u =>
        { u with present := true, presentRun := none })) ∧
    ∃ t : State, exec (.presentFlagSet l) s = .next t
      ∧ (t.lane l).present = true ∧ (t.lane l).presentRun = none ∧ (∀ m : Lane, (t.lane m).rx = (s.lane m).rx)
      ∧ (∀ m : Lane, m ≠ l → (t.lane m).present = (s.lane m).present)
      ∧ (isFront l = true → s.frontPresent L = false → (s.lane l).present = false → (s.ctx L).state = .dormant →
          s.outOfPlan = false →
          (t.ctx L).state ≠ .dormant
            ∧ ((∃ m ∈ t.line.status, m.body = .sleep .wake L) ∨ t.line.owedSleep.get L = some .wake))
      ∧ t.now = max s.now d ∧ LegFrame L s t

/-- A run of 1 ms in SEEK leads to ACQUIRE with its 20 ms timer. -/
def Obligations.SeekRunLeadsToAcquire : Prop :=
  ∀ (l : Lane) (L : Leg) (d : Nat) (s : State),
    (s.lane l).rx = .seek → (s.lane l).seekRun = some d → s.owner l = some L →
    ((s.lane l).present = true →
      exec (.seekRunEnd l) s = .next (({ s with now := max s.now d } : State).modLane l fun u =>
        { u with rx := .acquire, seekRun := none, adaptTimer := none
                 acquireTimer := some (max s.now d + 20000000) })) ∧
    ∃ t : State, exec (.seekRunEnd l) s = .next t
      ∧ (t.lane l).rx = .acquire ∧ (t.lane l).acquireTimer = some (max s.now d + 20000000)
      ∧ (t.lane l).seekRun = none ∧ (∀ m : Lane, m ≠ l → (t.lane m).rx = (s.lane m).rx) ∧ LegFrame L s t

/-- In ACQUIRE clock lock leads to ADAPT with its 100 ms timer, and the expiry of the 20 ms timer back to SEEK, counted.
In ADAPT the expiry of the 100 ms timer leads to SEEK, counted, and loss of clock lock to ACQUIRE with a fresh timer.
Out of ACQUIRE a clock lock is ignored. -/
def Obligations.AcquireAndAdaptEnd : Prop :=
  ∀ (l : Lane) (s : State),
    ((s.lane l).rx = .acquire →
      exec (.clockLock l) s = .next (s.modLane l fun u =>
        { u with rx := .adapt, acquireTimer := none, adaptTimer := some (s.now + 100000000) })) ∧
    ((s.lane l).rx ≠ .acquire → exec (.clockLock l) s = .next s) ∧
    (∀ d : Nat, (s.lane l).rx = .acquire → (s.lane l).acquireTimer = some d →
      exec (.acquireTimeout l) s = .next (({ s with now := max s.now d } : State).modLane l fun u =>
        { u with rx := .seek, acquireTimer := none, adaptTimer := none
                 seekRun := if u.raw then some (max s.now d + 1000000) else none
                 acquireTimeouts := if u.acquireTimeouts < 65535 then u.acquireTimeouts + 1 else u.acquireTimeouts })) ∧
    (∀ d : Nat, (s.lane l).rx = .adapt → (s.lane l).adaptTimer = some d →
      exec (.adaptTimeout l) s = .next (({ s with now := max s.now d } : State).modLane l fun u =>
        { u with rx := .seek, acquireTimer := none, adaptTimer := none
                 seekRun := if u.raw then some (max s.now d + 1000000) else none
                 adaptTimeouts := if u.adaptTimeouts < 65535 then u.adaptTimeouts + 1 else u.adaptTimeouts })) ∧
    ((s.lane l).rx = .adapt →
      exec (.clockLockLost l) s = .next (s.modLane l fun u =>
        { u with rx := .acquire, seekRun := none, adaptTimer := none, acquireTimer := some (s.now + 20000000) }))

/-- Adaptation complete in ADAPT gives LOCKED, counted; the tuning engine of a used front lane in WAITING goes to TUNING
with its 400 ms timer unless its context is DORMANT.  In any other receiver state the event changes nothing. -/
def Obligations.AdaptationGivesLocked : Prop :=
  ∀ (l : Lane) (L : Leg) (s : State), s.owner l = some L →
    ((s.lane l).rx = .adapt →
      ∃ t : State, exec (.adaptationComplete l) s = .next t
        ∧ (t.lane l).rx = .locked ∧ (t.lane l).adaptTimer = none
        ∧ (t.lane l).lockEntries = satInc 65535 (s.lane l).lockEntries
        ∧ (∀ m : Lane, m ≠ l → (t.lane m).rx = (s.lane m).rx ∧ (t.lane m).lockEntries = (s.lane m).lockEntries)
        ∧ (∀ k : FLane, l = frontLane k → (s.tuner k).st = .waiting → (s.ctx L).state ≠ .dormant →
            (t.tuner k).st = .tuning ∧ (t.tuner k).tuneTimer = some (s.now + 400000000))
        ∧ LegFrame L s t) ∧
    ((s.lane l).rx ≠ .adapt → exec (.adaptationComplete l) s = .next s)

/-- Loss of clock lock in LOCKED gives ACQUIRE with a fresh timer and one lock loss more; the lane leaves FOUND or IN_LOCK
for HUNT at once, from IN_LOCK with its segment returning to SEARCH, a front receiver withdraws its wish and settled, and an
armed checker's count is set to 65535.  At ratio 1:2 the lane's paths lose their prime, and the context's readiness acts on
the leg. -/
def Obligations.LockLossEndsDelivery : Prop :=
  ∀ (l : Lane) (L : Leg) (s : State), s.owner l = some L → (s.lane l).rx = .locked →
    ∃ t : State, exec (.clockLockLost l) s = .next t
      ∧ (t.lane l).rx = .acquire ∧ (t.lane l).acquireTimer = some (s.now + 20000000)
      ∧ (t.lane l).lockLosses = satInc 65535 (s.lane l).lockLosses ∧ LeavesLocked l L s t
      ∧ (∀ m : Lane, m ≠ l → (t.lane m).rx = (s.lane m).rx) ∧ LegFrame L s t

/-- After 10 us of absence the present flag clears, counted if it was set; a receiver in ACQUIRE, ADAPT or LOCKED goes to
SEEK, from LOCKED with one lock loss more and all that a receiver takes with it which leaves LOCKED, and one in SEEK stays
there.  A fall of front_present starts the dormancy timer of a context that is awake and not held in PLAN_MISMATCH. -/
def Obligations.AbsenceSendsToSeek : Prop :=
  ∀ (l : Lane) (L : Leg) (d : Nat) (s : State), s.owner l = some L → (s.lane l).absentRun = some d →
    (s.lane l).rx ≠ .off →
    ∃ t : State, exec (.signalAbsent l) s = .next t
      ∧ (t.lane l).rx = .seek ∧ (t.lane l).present = false ∧ (t.lane l).absentRun = none
      ∧ (t.lane l).signalLosses = (if (s.lane l).present then satInc 65535 (s.lane l).signalLosses
          else (s.lane l).signalLosses)
      ∧ (t.lane l).lockLosses = (if (s.lane l).rx = .locked then satInc 65535 (s.lane l).lockLosses
          else (s.lane l).lockLosses)
      ∧ t.now = max s.now d
      ∧ (∀ m : Lane, m ≠ l → (t.lane m).rx = (s.lane m).rx ∧ (t.lane m).present = (s.lane m).present)
      ∧ ((s.lane l).rx = .locked → LeavesLocked l L s t)
      ∧ ((s.lane l).rx ≠ .locked → (t.lane l).lock = (s.lane l).lock ∧ t.tuners = s.tuners ∧ t.checkers = s.checkers
          ∧ t.splits = s.splits ∧ t.merges = s.merges)
      ∧ (∀ c : Ctx, s.ctx? L = some c →
          let starts := s.frontPresent L = true ∧ t.frontPresent L = false ∧ c.state.awake = true ∧ c.mismatchHeld = false
          let dormancy := if starts then some (t.now + s.dormancyDelay) else c.dormancy
          ((s.lane l).rx = .locked → c.far.differs = false → ∃ c' : Ctx, t.ctx? L = some c' ∧ c'.dormancy = dormancy) ∧
          ((s.lane l).rx ≠ .locked → t.ctx? L = some { c with dormancy := dormancy }))
      ∧ LegFrame L s t

/-- Every step leaves each transmitter in the mode its table calls for or bound for it, and the readiness conditions those of
the lanes.  A lane unit that evaluates its table takes the mode of the first row that holds: at once, but for HOLD to DATA,
and DATA to HOLD with the source path still primed, which are pending and take effect at the marker boundary. -/
def Obligations.PendingModeTakesEffect : Prop :=
  (∀ (l : Lane) (s : State),
    (∀ m : TxMode, (s.lane l).pendingMode = some m →
      exec (.txModeChangeAtMarker l) s = .next (s.modLane l fun u => { u with mode := m, pendingMode := none })) ∧
    ((s.lane l).pendingMode = none → exec (.txModeChangeAtMarker l) s = .next s) ∧
    (∀ (L : Leg) (c : Ctx), s.owner l = some L → s.ctx? L = some c →
      let k := laneNo l
      let primed := if isFront l then
          (if s.gear then (s.split ⟨k.val / 2, by omega⟩).prime = .primed else (s.lane (cableLane k)).rx = .locked)
        else (if s.gear then (s.merge k).prime = .primed else (s.lane (frontLane k)).rx = .locked)
      let want : TxMode := if c.state = .dormant then .squelch
        else if isFront l then
          (if c.state = .check then .hold
           else if (s.tuner k).st ≠ .done ∧ (s.tuner k).st ≠ .failed then .tune
           else if c.state = .up ∧ primed then .data else .hold)
        else
          (if c.state = .check then .pattern
           else if (c.state = .ready ∨ c.state = .up) ∧ c.frontOk = true then .data else .hold)
      let u := s.lane l
      (s.evalTx L).lane l =
        if want = u.mode then { u with pendingMode := none }
        else if (u.mode = .hold ∧ want = .data) ∨ (u.mode = .data ∧ want = .hold ∧ primed) then
          { u with pendingMode := some want }
        else { u with mode := want, pendingMode := none })) ∧
  ∀ s t : State, UntouchedBeforeLoad s → TransmittersFollowTables s → ReadinessIsCurrent s → step s = .next t →
    TransmittersFollowTables t ∧ ReadinessIsCurrent t

/-! ## Tuning engines (chapter 3) -/

/-- A wish presented by a LOCKED receiver: taken in TUNING with no request outstanding, answered at once where the tap is
closed in that direction, abandoned at once in CLOSING, DONE and FAILED. -/
def Obligations.WishTakenAnsweredOrAbandoned : Prop :=
  ∀ (k : FLane) (i : Tap) (d : TapDir) (s : State),
    s.phase = .running → (s.owner (frontLane k)).isSome = true → (s.lane (frontLane k)).rx = .locked →
    (s.tuner k).wish = none →
    let closed := match d with
      | .inc => tapGet (s.tuner k).closedInc i
      | .dec => tapGet (s.tuner k).closedDec i
    ((s.tuner k).st = .tuning → (s.tuner k).req = none → closed = false →
      exec (.tapWish k i d) s = .next (s.modTuner k fun t => { t with
        req := some ⟨i, d, if tapGet t.partnerStatus i = .notUpdated then .asking else .pending, .notUpdated⟩
        answerTimer := some (s.now + 4000000) })) ∧
    ((s.tuner k).st = .tuning → (s.tuner k).req = none → closed = true →
      exec (.tapWish k i d) s = .next (s.modTuner k fun t => { t with
        reports := t.reports ++ [.answered (match d with | .inc => .atMax | .dec => .atMin)] })) ∧
    ((s.tuner k).st = .tuning → (s.tuner k).req ≠ none →
      exec (.tapWish k i d) s = .next (s.modTuner k fun t => { t with wish := some (i, d) })) ∧
    ((s.tuner k).st = .closing ∨ (s.tuner k).st = .done ∨ (s.tuner k).st = .failed →
      exec (.tapWish k i d) s = .next (s.modTuner k fun t => { t with reports := t.reports ++ [.abandoned] }))

/-- A receiver with no wish to present, presented or outstanding, raises settled, at most once in a stay in LOCKED; with
partner_ready the engine then enters CLOSING. -/
def Obligations.SettledMayClose : Prop :=
  ∀ (k : FLane) (L : Leg) (s : State),
    s.phase = .running → s.owner (frontLane k) = some L → (s.lane (frontLane k)).rx = .locked →
    ((s.tuner k).settled = false → (s.tuner k).wish = none → (s.tuner k).req = none →
      ∃ t : State, exec (.settled k) s = .next t ∧ (t.tuner k).settled = true
        ∧ (t.tuner k).st = (if (s.tuner k).st = .tuning ∧ (s.tuner k).partnerReady = true then .closing
            else (s.tuner k).st)
        ∧ (t.tuner k).taps = (s.tuner k).taps ∧ (∀ j : FLane, j ≠ k → t.tuner j = s.tuner j)
        ∧ (∀ m : Lane, (t.lane m).rx = (s.lane m).rx) ∧ LegFrame L s t) ∧
    ((s.tuner k).settled = true ∨ (s.tuner k).wish ≠ none ∨ (s.tuner k).req ≠ none →
      exec (.settled k) s = .next s)

/-- A frame whose check fails is counted and clears the partner-ready run, and nothing of it is read.  A new preset in
TUNING sets all three own taps and answers UPDATED on all three, whatever the tap requests of its frame. -/
def Obligations.BadFrameOrNewPreset : Prop :=
  ∀ (k : FLane) (f : TuningFrame) (L : Leg) (s : State),
    s.phase = .running → s.owner (frontLane k) = some L → (s.lane (frontLane k)).rx = .locked →
    ((s.tuner k).st ≠ .closing →
      exec (.tuningFrameReceived k f false) s = .next (s.modTuner k fun t => { t with
        frameErrors := if t.frameErrors < 65535 then t.frameErrors + 1 else t.frameErrors, run := 0 })) ∧
    ((s.tuner k).st = .tuning → f.preset ≠ .none → f.preset ≠ (s.tuner k).seenPreset →
      ∃ t : State, exec (.tuningFrameReceived k f true) s = .next t
        ∧ (t.tuner k).taps = (if f.preset = .preset then ⟨0, 44, 0⟩ else s.image.frontTaps.get k)
        ∧ (t.tuner k).statuses = ⟨.updated, .updated, .updated⟩ ∧ (t.tuner k).seenReqs = ⟨.hold, .hold, .hold⟩
        ∧ (t.tuner k).seenPreset = f.preset ∧ (∀ j : FLane, j ≠ k → t.tuner j = s.tuner j) ∧ LegFrame L s t)

/-- A new tap request in a frame without a preset steps the own tap once: INC is refused with AT_MAX at the top of the
range or where the sum would exceed 56, DEC with AT_MIN at the bottom. -/
def Obligations.NewRequestStepsTap : Prop :=
  ∀ (k : FLane) (i : Tap) (d : TapDir) (f : TuningFrame) (L : Leg) (s : State),
    s.phase = .running → s.owner (frontLane k) = some L → (s.lane (frontLane k)).rx = .locked →
    (s.tuner k).st = .tuning → (s.tuner k).seenPreset = .none → f.preset = .none →
    (s.tuner k).seenReqs = tapAll .hold →
    f.reqs = tapSet (tapAll .hold) i (match d with | .inc => .inc | .dec => .dec) →
    ∃ t : State, exec (.tuningFrameReceived k f true) s = .next t
      ∧ (t.tuner k).seenReqs = f.reqs
      ∧ (let v := tapGet (s.tuner k).taps i
         let refused := match d with
           | .inc => tapTop i ≤ v ∨ 56 < tapSum (s.tuner k).taps + 1
           | .dec => v ≤ tapBottom i
         let after := match d with
           | .inc => v + 1
           | .dec => v - 1
         let refusal := match d with
           | .inc => TapStatus.atMax
           | .dec => TapStatus.atMin
         (refused → (t.tuner k).taps = (s.tuner k).taps ∧ tapGet (t.tuner k).statuses i = refusal) ∧
         (¬ refused → (t.tuner k).taps = tapSet (s.tuner k).taps i after
            ∧ tapGet (t.tuner k).statuses i = .updated))
      ∧ (∀ j : FLane, j ≠ k → t.tuner j = s.tuner j) ∧ LegFrame L s t

/-- Each closing frame sent is counted while the transmitter is in TUNE; the eighth takes the engine to DONE, confirmed,
and front_ok, where that was the last condition it lacked, acts on the leg. -/
def Obligations.EighthClosingFrameGivesDone : Prop :=
  ∀ (k : FLane) (L : Leg) (s : State),
    s.phase = .running → s.owner (frontLane k) = some L → (s.lane (frontLane k)).mode = .tune →
    (s.tuner k).st = .closing →
    ∃ t : State, exec (.tuningFrameSent k) s = .next t
      ∧ (if (s.tuner k).closingSent < 7 then
          t.tuner k = { s.tuner k with closingSent := (s.tuner k).closingSent + 1 }
        else (t.tuner k).st = .done ∧ (t.tuner k).unconfirmed = false ∧ (t.tuner k).tuneTimer = none)
      ∧ (∀ c : Ctx, s.ctx? L = some c → ∃ c' : Ctx, t.ctx? L = some c' ∧ TakesReadiness L s t c c')
      ∧ (t.tuner k).taps = (s.tuner k).taps ∧ (∀ j : FLane, j ≠ k → t.tuner j = s.tuner j) ∧ LegFrame L s t

/-- The expiry of the answer timer abandons the outstanding request, counted; that of the release timer ends it as
answered with the answer read, uncounted.  The engine reports the end to the receiver, and with it the end of a waiting wish
that ends in turn: answered where its direction is closed, abandoned where the engine enters CLOSING; else that wish becomes
the outstanding request (log 26). -/
def Obligations.HandshakeTimersEndRequest : Prop :=
  ∀ (k : FLane) (d : Nat) (r : OutRequest) (L : Leg) (s : State), s.owner (frontLane k) = some L →
    (s.tuner k).req = some r →
    let x := s.tuner k
    let closes := x.st = .tuning ∧ s.ownReady k = true ∧ x.partnerReady = true
    let ends := fun (first : WishReport) (y : Tuner) =>
      (x.wish = none → y.req = none ∧ y.answerTimer = none ∧ y.releaseTimer = none ∧ y.reports = x.reports ++ [first]) ∧
      (∀ (i : Tap) (w : TapDir), x.wish = some (i, w) → x.st = .tuning →
        let shut := (match w with
          | .inc => tapGet x.closedInc i
          | .dec => tapGet x.closedDec i) = true
        y.wish = none ∧ y.releaseTimer = none ∧
        (closes → y.req = none ∧ y.reports = x.reports ++ [first, .abandoned]) ∧
        (¬ closes → shut → y.req = none
          ∧ y.reports = x.reports ++ [first, .answered (match w with | .inc => .atMax | .dec => .atMin)]) ∧
        (¬ closes → ¬ shut → y.reports = x.reports ++ [first] ∧ y.answerTimer = some (max s.now d + 4000000)
          ∧ y.req = some ⟨i, w, if tapGet x.partnerStatus i = .notUpdated then .asking else .pending, .notUpdated⟩))
    (x.answerTimer = some d →
      ∃ t : State, exec (.answerTimerExpiry k) s = .next t ∧ t.now = max s.now d ∧ ends .abandoned (t.tuner k)
        ∧ (t.tuner k).abandoned = satInc 65535 x.abandoned ∧ (t.tuner k).taps = x.taps
        ∧ (t.tuner k).st = (if closes then .closing else x.st)
        ∧ (∀ j : FLane, j ≠ k → t.tuner j = s.tuner j) ∧ LegFrame L s t) ∧
    (x.releaseTimer = some d →
      ∃ t : State, exec (.tuningReleaseTimerExpiry k) s = .next t ∧ t.now = max s.now d
        ∧ ends (.answered r.answer) (t.tuner k)
        ∧ (t.tuner k).abandoned = x.abandoned ∧ (t.tuner k).taps = x.taps
        ∧ (t.tuner k).st = (if closes then .closing else x.st)
        ∧ (∀ j : FLane, j ≠ k → t.tuner j = s.tuner j) ∧ LegFrame L s t)

/-- The 400 ms timer gives DONE, unconfirmed, in TUNING with own ready; FAILED, counted and with its 100 ms wait, without;
and DONE, confirmed, in CLOSING; the own taps stay.  The end of the failure wait restarts this lane's engine alone:
INITIAL taps, and TUNING at once where its receiver is LOCKED and its context is not DORMANT, WAITING otherwise. -/
def Obligations.TuningTimeoutAndRestart : Prop :=
  ∀ (k : FLane) (d : Nat) (L : Leg) (s : State), s.owner (frontLane k) = some L →
    ((s.tuner k).tuneTimer = some d →
      ∃ t : State, exec (.tuningTimeout k) s = .next t
        ∧ ((s.tuner k).st = .tuning → s.ownReady k = true →
            (t.tuner k).st = .done ∧ (t.tuner k).unconfirmed = true ∧ (t.tuner k).failures = (s.tuner k).failures)
        ∧ ((s.tuner k).st = .tuning → s.ownReady k = false →
            (t.tuner k).st = .failed ∧ (t.tuner k).failures = satInc 255 (s.tuner k).failures
              ∧ (t.tuner k).failWait = some (max s.now d + 100000000))
        ∧ ((s.tuner k).st = .closing → (t.tuner k).st = .done ∧ (t.tuner k).unconfirmed = false)
        ∧ (t.tuner k).tuneTimer = none ∧ (t.tuner k).req = none ∧ (t.tuner k).taps = (s.tuner k).taps
        ∧ (∀ j : FLane, j ≠ k → t.tuner j = s.tuner j) ∧ LegFrame L s t) ∧
    ((s.tuner k).failWait = some d →
      ∃ t : State, exec (.failureWaitEnd k) s = .next t
        ∧ (t.tuner k).taps = s.image.frontTaps.get k ∧ (t.tuner k).failWait = none ∧ (t.tuner k).req = none
        ∧ (t.tuner k).st =
            (if (s.lane (frontLane k)).rx = .locked ∧ (s.ctx L).state ≠ .dormant then .tuning else .waiting)
        ∧ (t.tuner k).failures = (s.tuner k).failures ∧ (∀ j : FLane, j ≠ k → t.tuner j = s.tuner j)
        ∧ LegFrame L s t)

/-! ## Codeword monitor (chapter 4) -/

/-- Marker lock of a lane whose receiver is LOCKED.  In HUNT a pattern with the lane's index, put right by the polarity bit,
leads to FOUND, and one with another index is counted.  At the expected position a good marker gives IN_LOCK with run 0;
a bad one gives HUNT from FOUND, and in IN_LOCK adds to the run, the fourth in a row giving HUNT with one loss counted and the
segment returning to SEARCH.  The paths of the gearbox prime and lose their prime by the tables of R72 to R75, and the
readiness acts on the leg. -/
def Obligations.MarkersMoveLock : Prop :=
  ∀ (l : Lane) (L : Leg) (s : State), s.owner l = some L → (s.lane l).rx = .locked →
    (∀ (i : Fin 16) (p : Nat) (w : Bool), (s.lane l).lock = .hunt →
      exec (.markerFound l i p w) s = .next (
        if w ≠ s.polarity l then s
        else if i.val = s.laneIndex l then
          s.modLane l fun u => { u with lock := .found, pos := p % markerPeriod (s.laneClass l) }
        else s.modLane l fun u => { u with
          mismatches := if u.mismatches < 65535 then u.mismatches + 1 else u.mismatches })) ∧
    (∀ r : MarkerRead, (s.lane l).lock ≠ .hunt →
      ∃ t : State, exec (.markerCheck l r) s = .next t
        ∧ (∀ (i : Fin 16) (p : Nat), r = .pattern i p (s.polarity l) → i.val = s.laneIndex l →
            (t.lane l).lock = .inLock ∧ (t.lane l).badRun = 0
              ∧ (t.lane l).pos = p % markerPeriod (s.laneClass l) ∧ (t.lane l).markerLosses = (s.lane l).markerLosses
              ∧ GearAtMarker l L (some p) s t
              ∧ ((∃ m ∈ s.segLanes L (segmentOf l), m ≠ l ∧ (s.lane m).lock ≠ .inLock) →
                ∀ c : Ctx, s.ctx? L = some c → SegsAtLane l false c (t.ctx L)))
        ∧ ((∀ (i : Fin 16) (p : Nat), r = .pattern i p (s.polarity l) → i.val ≠ s.laneIndex l) →
            (t.lane l).pos = (s.lane l).pos ∧ GearAtMarker l L none s t
              ∧ (∀ c : Ctx, s.ctx? L = some c →
                SegsAtLane l (decide ((s.lane l).lock = .inLock ∧ 3 ≤ (s.lane l).badRun)) c (t.ctx L))
              ∧ (if (s.lane l).lock = .inLock ∧ (s.lane l).badRun < 3 then
                  (t.lane l).lock = .inLock ∧ (t.lane l).badRun = (s.lane l).badRun + 1
                    ∧ (t.lane l).markerLosses = (s.lane l).markerLosses
                else (t.lane l).lock = .hunt ∧ (t.lane l).badRun = 0
                  ∧ (t.lane l).markerLosses = (if (s.lane l).lock = .inLock
                      then satInc 65535 (s.lane l).markerLosses else (s.lane l).markerLosses)))
        ∧ (t.lane l).mismatches = (match r with
            | .pattern i _ w => if w = s.polarity l ∧ i.val ≠ s.laneIndex l then satInc 65535 (s.lane l).mismatches
                else (s.lane l).mismatches
            | .damaged | .nothing => (s.lane l).mismatches)
        ∧ (∀ c : Ctx, s.ctx? L = some c → ∃ c' : Ctx, t.ctx? L = some c' ∧ TakesReadiness L s t c c')
        ∧ (∀ m : Lane, (t.lane m).rx = (s.lane m).rx) ∧ LegFrame L s t)

/-- At a good marker that leaves every lane of the segment in IN_LOCK, the skew is the shortest arc that holds all marker
positions; at most 192 symbols give ALIGNED, more give SEARCH with the skew flag, a return and a flag set being counted.
A return of a cable segment at ratio 1:2 costs its splits their prime, and the readiness acts on the leg. -/
def Obligations.SkewDecidesAlignment : Prop :=
  ∀ (l : Lane) (i : Fin 16) (p : Nat) (L : Leg) (c : Ctx) (s : State),
    s.owner l = some L → s.ctx? L = some c → (s.lane l).rx = .locked → (s.lane l).lock ≠ .hunt →
    i.val = s.laneIndex l →
    (∀ m ∈ s.segLanes L (segmentOf l), m ≠ l → (s.lane m).lock = .inLock) →
    ∃ (t : State) (c' : Ctx) (d : Nat), exec (.markerCheck l (.pattern i p (s.polarity l))) s = .next t
      ∧ t.ctx? L = some c' ∧ (c'.seg (segmentOf l)).skew = some d
      ∧ (let period := markerPeriod (s.laneClass l)
         let spans := fun (arc : Nat) => ∃ m ∈ s.segLanes L (segmentOf l), ∀ q ∈ s.segLanes L (segmentOf l),
           ((t.lane q).pos + period - (t.lane m).pos) % period ≤ arc
         spans d ∧ ∀ arc : Nat, spans arc → d ≤ arc)
      ∧ (let x := c.seg (segmentOf l)
         let y := c'.seg (segmentOf l)
         (d ≤ 192 → y.align = .aligned ∧ y.skewFlag = false ∧ y.alignLosses = x.alignLosses
            ∧ y.skewExcess = x.skewExcess) ∧
         (192 < d → y.align = .search ∧ y.skewFlag = true
            ∧ y.alignLosses = (if x.align = .aligned then satInc 65535 x.alignLosses else x.alignLosses)
            ∧ y.skewExcess = (if x.skewFlag then x.skewExcess else satInc 65535 x.skewExcess)
            ∧ (x.align = .aligned → y.acc.loss = true
              ∧ (segmentOf l = .cableIn → s.gear = true → ∀ j ∈ s.cableLanes L, t.split j = (s.split j).lost))))
      ∧ TakesReadiness L s t c c'
      ∧ LegFrame L s t

/-- A codeword of an ALIGNED segment adds 1 to N and 1 to exactly one of H[0..15] and U; an increment that finds its count
at 1,048,575 is not applied and sets the saturated flag.  In SEARCH nothing is classified. -/
def Obligations.CodewordIsCountedOnce : Prop :=
  ∀ (L : Leg) (g : Segment) (cls : CodewordClass) (s : State),
    ((((s.ctx L).seg g).align = .aligned →
      exec (.codewordClassified L g cls) s = .next (s.modSeg L g fun x => { x with acc :=
        let a := x.acc
        let up := fun (n : Nat) => if n < 1048575 then n + 1 else n
        match cls with
        | .errored k => { a with
            n := up a.n, h := a.h.set k.val (up (a.h.get k)) k.isLt
            saturated := a.saturated || decide (1048575 ≤ a.n) || decide (1048575 ≤ a.h.get k) }
        | .uncorrectable => { a with
            n := up a.n, u := up a.u
            saturated := a.saturated || decide (1048575 ≤ a.n) || decide (1048575 ≤ a.u) } })) ∧
    (((s.ctx L).seg g).align = .search → exec (.codewordClassified L g cls) s = .next s))

/-- A checker that is armed, not pinned, and on a LOCKED receiver loads its first symbols, then compares: a differing symbol
adds 1, the eighth in a row starts loading 16 symbols afresh, an equal one ends the row.  Otherwise nothing changes. -/
def Obligations.PatternCheckerComparesSymbols : Prop :=
  ∀ (k : CLane) (x : Level) (s : State),
    let seen := if s.polarity (cableLane k) then complementLevel x else x
    let counts := (s.checker k).armed = true ∧ (s.checker k).dead = false ∧ (s.lane (cableLane k)).rx = .locked
    (counts → 0 < (s.checker k).toLoad →
      exec (.patternCheckerSymbol k x) s = .next (s.modChecker k fun ch => { ch with
        reg := loadSymbol ch.reg seen, toLoad := ch.toLoad - 1 })) ∧
    (counts → (s.checker k).toLoad = 0 → (prbsSymbol (s.checker k).reg).1 = seen →
      exec (.patternCheckerSymbol k x) s = .next (s.modChecker k fun ch => { ch with
        reg := (prbsSymbol ch.reg).2, missRun := 0 })) ∧
    (counts → (s.checker k).toLoad = 0 → (prbsSymbol (s.checker k).reg).1 ≠ seen →
      exec (.patternCheckerSymbol k x) s = .next (s.modChecker k fun ch => { ch with
        reg := (prbsSymbol ch.reg).2
        count := if ch.count < 65535 then ch.count + 1 else ch.count
        missRun := if ch.missRun < 7 then ch.missRun + 1 else 0
        toLoad := if ch.missRun < 7 then 0 else 16 })) ∧
    (¬ counts → exec (.patternCheckerSymbol k x) s = .next s)

/-! ## Intervals and strain (chapter 5, 9.1) -/

/-- INTERVAL_CLOSE closes interval c and opens c + 1, for every context at once: its accumulators start again, with the loss
flag set where the segment is in SEARCH; its ring takes the record of c, the oldest going first at full depth; the worse
segment grade is the leg grade, and a change of it sets GRADE_CHANGE; a segment entering FAIL faults an UP leg where the
image asks for it.  Queued ALERTs count the close.  Lanes, engines, roster and collection stay. -/
def Obligations.IntervalCloseAdvances : Prop :=
  ∀ s : State, s.phase = .running → 0 < s.image.depth →
    ∃ t : State, exec .intervalClose s = .next t
      ∧ t.interval = s.interval + 1 ∧ t.intervalEnd = s.intervalEnd.map (· + 16384 * 2 ^ s.image.k)
      ∧ t.now = max s.now (s.intervalEnd.getD 0)
      ∧ (s.line.urgent.map fun m => match m.body with
          | .alert L code n => MsgBody.alert L code (if n < 15 then n + 1 else n)
          | b => b) <+: t.line.urgent.map Msg.body
      ∧ (∀ L ∈ s.legs, ∀ c : Ctx, s.ctx? L = some c → ∃ (c' : Ctx) (r : Record), t.ctx? L = some c'
          ∧ r.interval = s.interval ∧ r.state = c.state ∧ r.grade = worse r.front.grade r.cable.grade
          ∧ c'.ring <:+ c.ring ++ [r] ∧ c'.ring.length = min (c.ring.length + 1) s.image.depth
          ∧ c'.front.acc = { loss := decide (c.front.align = .search) }
          ∧ c'.cable.acc = { loss := decide (c.cable.align = .search) }
          ∧ c'.legGrade = r.grade
          ∧ (r.grade ≠ c.legGrade → t.port.has .gradeChange)
          ∧ (c.state = .up → s.image.strainFault = true →
              ((c.front.grade ≠ .fail ∧ r.front.grade = .fail) ∨ (c.cable.grade ≠ .fail ∧ r.cable.grade = .fail)) →
              c'.state = .faulted ∧ c'.cause = .strain))
      ∧ (∀ l : Lane, (t.lane l).rx = (s.lane l).rx ∧ (t.lane l).lock = (s.lane l).lock) ∧ t.tuners = s.tuners
      ∧ t.image = s.image ∧ t.straps = s.straps ∧ t.roster = s.roster ∧ t.coll = s.coll

/-- What the close makes of one segment: R88, the tail, is 17 under the loss flag, else 16 with U > 0, else 0 with N = 0, else
the largest k with H[k] > 0; R89, the density, is floor(S × 1024 / N) held to 16384, 0 when N is 0. -/
def Obligations.RecordTailAndDensity : Prop :=
  ∀ (L : Leg) (c : Ctx) (s : State), s.phase = .running → L ∈ s.legs → s.ctx? L = some c →
    ∃ (t : State) (c' : Ctx) (r : Record), exec .intervalClose s = .next t ∧ t.ctx? L = some c'
      ∧ c'.ring.getLast? = some r
      ∧ ∀ (a : Accum) (y : SegRecord), (a = c.front.acc ∧ y = r.front) ∨ (a = c.cable.acc ∧ y = r.cable) →
          (a.loss = true → y.t = 17)
            ∧ (a.loss = false → 0 < a.u → y.t = 16)
            ∧ (a.loss = false → a.u = 0 → a.n = 0 → y.t = 0)
            ∧ (a.loss = false → a.u = 0 → 0 < a.n → ∀ k : Fin 16, 0 < a.h.get k →
                (∀ j : Fin 16, k < j → a.h.get j = 0) → y.t = k.val)
            ∧ y.dn = (if a.n = 0 then 0
                else min 16384 (((∑ k : Fin 16, k.val * a.h.get k) + 16 * a.u) * 1024 / a.n))
            ∧ y.n = a.n ∧ y.u = a.u ∧ y.loss = a.loss ∧ y.saturated = a.saturated

/-- R91 to R93 for one segment at the close: the strain is s + P[t] + 4 × min(U, 64) − Dk, held to 0..4095, and the grade goes
by the table of R93; both stand in the record and become the segment's, an entry into FAIL being counted. -/
def Obligations.StrainAndGradeFollowTables : Prop :=
  ∀ (L : Leg) (c : Ctx) (s : State), s.phase = .running → L ∈ s.legs → s.ctx? L = some c →
    ∃ (t : State) (c' : Ctx) (r : Record), exec .intervalClose s = .next t ∧ t.ctx? L = some c'
      ∧ c'.ring.getLast? = some r
      ∧ ∀ (x z : Seg) (y : SegRecord),
          (x = c.front ∧ z = c'.front ∧ y = r.front) ∨ (x = c.cable ∧ z = c'.cable ∧ y = r.cable) →
          (∀ i : Fin 18, i.val = y.t →
            (y.strain : Int) = max 0 (min 4095
              ((x.strain : Int) + (s.image.penalty.get i + 4 * min x.acc.u 64 : Nat) - s.image.decay)))
            ∧ y.t < 18 ∧ y.strain ≤ 4095 ∧ z.strain = y.strain ∧ z.grade = y.grade
            ∧ y.grade = (match x.grade with
                | .good => if s.image.fail ≤ y.strain then .fail else if s.image.warn ≤ y.strain then .warn else .good
                | .warn => if s.image.fail ≤ y.strain then .fail
                    else if y.strain < s.image.warn - s.image.hyst then .good else .warn
                | .fail => if y.strain < s.image.warn - s.image.hyst then .good
                    else if y.strain < s.image.fail - s.image.hyst then .warn else .fail)
            ∧ z.failEntries = (if x.grade ≠ .fail ∧ y.grade = .fail then satInc 65535 x.failEntries else x.failEntries)

/-- A FILLING capture whose window includes the closing interval takes the record of its context and is HELD after that of
T + A, which sets CAPTURE_DONE; every other capture in use but a RETRIEVED one stays as it is. -/
def Obligations.FillingCaptureTakesRecord : Prop :=
  ∀ (i : Fin 8) (x : Capture) (c : Ctx) (s : State), s.phase = .running → s.slot i = some x → x.leg ∈ s.legs →
    s.ctx? x.leg = some c →
    ∃ (t : State) (c' : Ctx) (r : Record), exec .intervalClose s = .next t ∧ t.ctx? x.leg = some c'
      ∧ c'.ring.getLast? = some r ∧ r.interval = s.interval
      ∧ (x.state = .filling → s.interval ∈ windowOf s.image x.t →
          t.slot i = some { x with
            records := x.records ++ [r]
            state := if s.interval = x.t + BitVec.ofNat 16 s.image.capA then .held else .filling }
          ∧ (s.interval = x.t + BitVec.ofNat 16 s.image.capA → t.port.has .captureDone))
      ∧ (x.state = .filling → s.interval ∉ windowOf s.image x.t → t.slot i = some x)
      ∧ (x.state = .held → t.slot i = some x)

/-! ## Peer line (chapter 6) -/

/-- FIRST_BEACON queues the first BEACON of an in-plan station whose idle run has reached 32, as the bits it has read make it
(log 3), and starts the beacon timer; at any other time it changes nothing (log 2).  Each expiry of that timer queues a BEACON
and runs it again; the expiry of the spacing timer queues one.  With a BEACON queued already none is added; that a spacing
expiry adds nothing either while that BEACON is in an attempt is the model's choice (log 34). -/
def Obligations.BeaconScheduleRuns : Prop :=
  ∀ (d : Nat) (s : State), s.outOfPlan = false →
    let period := 1000000 * 2 ^ (s.image.beaconCode + 1)
    let joined := fun (l : Line) => { l with
      status := l.status ++ [⟨l.nextJoin, 0, 0, .beacon⟩], nextJoin := l.nextJoin + 1 }
    let none_ := ∀ m ∈ s.line.status, m.body ≠ .beacon
    (s.phase = .running → s.line.beaconStarted = false → 32 ≤ s.line.idleRun → none_ →
      exec .firstBeacon s = .next { s with line := joined { s.line with
        beaconStarted := true, beaconTimer := some (s.now + period) } }) ∧
    ((s.phase ≠ .running ∨ s.line.beaconStarted = true ∨ s.line.idleRun < 32) → exec .firstBeacon s = .next s) ∧
    (s.line.beaconTimer = some d → none_ →
      exec .beaconTimerExpiry s = .next { s with
        now := max s.now d, line := joined { s.line with beaconTimer := some (d + period) } }) ∧
    (s.line.beaconTimer = some d → ¬ none_ →
      ∃ l : Line, exec .beaconTimerExpiry s = .next { s with now := max s.now d, line := l }
        ∧ l.beaconTimer = some (d + period) ∧ places l.status = places s.line.status) ∧
    (s.line.spacingTimer = some d → none_ →
      exec .spacingTimerExpiry s = .next { s with
        now := max s.now d, line := joined { s.line with spacingTimer := none } }) ∧
    (s.line.spacingTimer = some d → ¬ none_ →
      exec .spacingTimerExpiry s = .next { s with now := max s.now d, line := { s.line with spacingTimer := none } })

/-- An attempt offers the queued message of lowest effective priority, then urgent before status before bulk, then earliest
joined; its frame carries that priority, the station number, the kind and the body of the moment, an ALERT's number being
the trigger counter plus 1.  In another line mode, out of plan or short of the idle run no attempt starts, nor does a command
that tells another idle run than the station's own (log 8, a DESIGN CHOICE). -/
def Obligations.AttemptStartsWithOfferedMessage : Prop :=
  ∀ (run : Nat) (s : State),
    (s.phase = .running → s.outOfPlan = false → s.line.mode = .normal → s.line.attempt = none →
      s.line.abortMark = none → s.line.underWay = false → run = s.line.idleRun → 8 + s.line.backoff.getD 0 ≤ run →
      (∃ cls : MsgClass, s.line.queue cls ≠ []) →
      ∃ (cls : MsgClass) (m : Msg) (f : Frame), m ∈ s.line.queue cls
        ∧ (∀ (cls' : MsgClass) (m' : Msg), m' ∈ s.line.queue cls' →
            let p := initialPriority cls - m.waits / 4
            let p' := initialPriority cls' - m'.waits / 4
            p < p' ∨ p = p' ∧ (classRank cls < classRank cls' ∨ cls = cls' ∧ m.join ≤ m'.join))
        ∧ f.priority = initialPriority cls - m.waits / 4 ∧ f.sender = s.station ∧ f.kind = kindOf m.body
        ∧ f.check = crcBits (headBits f.priority f.sender f.kind f.body)
        ∧ f.body = (match m.body with
            | .beacon => encodeBeacon s.beaconBody
            | .alert L code closes => encodeAlert ⟨s.line.trig + 1, L, code, closes⟩
            | .sleep _ L => encodeSleep L
            | .fetch g => encodeFetch g
            | .parcel body _ => body)
        ∧ exec (.attemptStart run) s = .next { s with line := { s.line with
            attempt := some ⟨cls, m.join, f, s.now + 1000 * (36 + 9 * f.body.length)⟩
            backoff := none, underWay := true, startMark := some s.now, heard := [], idleRun := 0, domRun := 0 } }) ∧
    ((s.outOfPlan = true ∨ s.line.mode ≠ .normal ∨ s.line.attempt ≠ none ∨ s.line.idleRun < 8 + s.line.backoff.getD 0
        ∨ run ≠ s.line.idleRun ∨ ∀ cls : MsgClass, s.line.queue cls = []) →
      exec (.attemptStart run) s = .next s)

/-- A station that loses arbitration unlocks its message and reads on as a receiver, the bits sent before the one that lost and
that one, read dominant, being the winner's: no failure, no backoff, and every queued message keeps its place, joining time and
waits, and where nothing is owed its failed attempts. -/
def Obligations.ArbitrationLossKeepsMessage : Prop :=
  ∀ (a : Attempt) (s : State), s.line.attempt = some a →
    ∃ l : Line, exec .arbitrationLost s = .next { s with line := l }
      ∧ l.attempt = none ∧ l.underWay = true ∧ l.backoff = s.line.backoff ∧ l.consecFails = s.line.consecFails
      ∧ l.failedAttempts = s.line.failedAttempts ∧ l.mode = s.line.mode
      ∧ l.heard = a.frame.wire.take (a.bitsRead s.now - 1) ++ [false]
      ∧ (∀ cls : MsgClass, places (l.queue cls) = places (s.line.queue cls))
      ∧ ((∀ L ∈ allLegs, s.line.owedSleep.get L = none) → s.line.owedFetch = none →
          l = { s.line with
            attempt := none, underWay := true, owedBeacon := none, heard := l.heard
            domRun := a.frame.domRunAtDifference (a.bitsRead s.now) })

/-- A failed attempt, by an abort with its mark of 12 bit times or by a rejected end mark without one, is counted, sets the
backoff chosen and unlocks the message.  Below 16 failures the message stays with one more; the sixteenth takes it from its
queue, counted, an ALERT's captures becoming UNSHARED and a discarded FETCH of a running collection, told by its fields (log 16), a timeout.  The
thirty-second failure in a row gives QUIET for 250 ms. -/
def Obligations.FailedAttemptIsCounted : Prop :=
  ∀ (b : Fin 16) (aborted second : Bool) (a : Attempt) (m : Msg) (s : State),
    s.line.attempt = some a → s.line.attempted a = some m →
    let at' := if aborted then s.now else max s.now (if second then a.ends else a.ends - 1000)
    ∃ t : State, exec (if aborted then .attemptAbort b else .attemptEnd (.dominant second b)) s = .next t
      ∧ t.now = at' ∧ t.line.attempt = none ∧ t.line.backoff = some (b.val + 1)
      ∧ t.line.abortMark = (if aborted then some (at' + 12000) else none)
      ∧ t.line.underWay = false ∧ t.line.idleRun = 0
      ∧ t.line.domRun = a.frame.domRunAtDifference (a.bitsRead at')
      ∧ t.line.failedAttempts = satInc 65535 s.line.failedAttempts ∧ t.line.sent = s.line.sent
      ∧ (m.fails < 15 →
          (∀ cls : MsgClass, places (t.line.queue cls) = places (s.line.queue cls))
          ∧ t.slots = s.slots ∧ t.coll = s.coll
          ∧ ((∀ L ∈ allLegs, s.line.owedSleep.get L = none) → s.line.owedFetch = none → ∀ cls : MsgClass,
            t.line.queue cls = (s.line.queue cls).map fun x =>
              if cls = a.cls ∧ x.join = a.join then { x with fails := x.fails + 1 } else x))
      ∧ (15 ≤ m.fails → t.line.retryDiscards = satInc 65535 s.line.retryDiscards
          ∧ (JoinsInOrder s → ∀ x ∈ t.line.queue a.cls, x.join ≠ a.join)
          ∧ (∀ cls : MsgClass,
            places ((s.line.queue cls).filter fun x => !decide (cls = a.cls ∧ x.join = a.join))
              <+: places (t.line.queue cls))
          ∧ (∀ (L : Leg) (code n : Nat), m.body = .alert L code n → ∀ (i : Fin 8) (c : Capture),
              s.slot i = some c → c.link = some a.join → t.slot i = some { c with unshared := true, link := none })
          ∧ ((∀ f : Fetch, m.body ≠ .fetch f) → t.coll = s.coll)
          ∧ (∀ f : Fetch, m.body = .fetch f →
            let latest := s.coll.state = .running
              ∧ f = ⟨s.coll.target, s.coll.leg, s.coll.trig, s.coll.criterion, s.coll.cursor⟩
            (¬ latest → t.coll = s.coll) ∧
            (latest → s.coll.timeouts < 2 →
              t.coll = { s.coll with timeouts := s.coll.timeouts + 1, answer := some (at' + 20000000) }
                ∧ (s.outOfPlan = false → t.line.handsOut f)) ∧
            (latest → 2 ≤ s.coll.timeouts →
              t.coll = { s.coll with state := .failed, answer := none } ∧ t.port.has .collectDone)))
      ∧ (s.line.consecFails < 31 → t.line.consecFails = s.line.consecFails + 1 ∧ t.line.mode = s.line.mode)
      ∧ (31 ≤ s.line.consecFails → t.line.consecFails = 0 ∧ t.line.quietTimer = some (at' + 250000000)
          ∧ t.line.quietEntries = satInc 65535 s.line.quietEntries ∧ t.port.has .lineFault
          ∧ (s.line.mode ≠ .stuck → t.line.mode = .quiet))
      ∧ t.lanes = s.lanes ∧ t.tuners = s.tuners ∧ t.ctxs = s.ctxs ∧ t.roster = s.roster ∧ t.interval = s.interval

/-- A success takes the message from its queue, clears the consecutive failures and counts as sent and received, one wait for
every message that stays.  A completed ALERT gives its number to the trigger counter and to the captures linked to it, a
BEACON sets the spacing mark, a running spacing timer following it (log 34), a FETCH of the running collection, told by its fields (log 16), restarts
the answer timer, and a PARCEL that carries LAST releases its capture. -/
def Obligations.SuccessEndsAttempt : Prop :=
  ∀ (a : Attempt) (m : Msg) (s : State), s.line.attempt = some a → s.line.attempted a = some m →
    ∃ t : State, exec (.attemptEnd .recessive) s = .next t
      ∧ t.now = max s.now a.ends ∧ t.line.attempt = none ∧ t.line.consecFails = 0 ∧ t.line.mode = s.line.mode
      ∧ t.line.sent = satInc 65535 s.line.sent ∧ t.line.received = satInc 65535 s.line.received
      ∧ t.line.underWay = false ∧ t.line.idleRun = 0 ∧ t.line.domRun = 0
      ∧ t.line.failedAttempts = s.line.failedAttempts
      ∧ (JoinsInOrder s → ∀ x ∈ t.line.queue a.cls, x.join ≠ a.join)
      ∧ (∀ cls : MsgClass,
          (((s.line.queue cls).filter fun x => !decide (cls = a.cls ∧ x.join = a.join)).map fun x =>
            (x.join, satInc 255 x.waits)) <+: places (t.line.queue cls))
      ∧ (∀ (L : Leg) (code n : Nat), m.body = .alert L code n →
          t.line.trig = a.frame.body.headD 0 ∧ t.line.synced = true
          ∧ ∀ (i : Fin 8) (c : Capture), s.slot i = some c → c.link = some a.join →
              t.slot i = some { c with trig := some (a.frame.body.headD 0), link := none })
      ∧ ((∀ (L : Leg) (code n : Nat), m.body ≠ .alert L code n) →
          t.line.trig = s.line.trig ∧ t.line.synced = s.line.synced)
      ∧ (m.body = .beacon → t.line.spacingMark = some t.now
          ∧ (s.line.spacingTimer ≠ none → t.line.spacingTimer = some (t.now + 1000000)))
      ∧ (m.body ≠ .beacon → t.line.spacingMark = s.line.spacingMark)
      ∧ (∀ f : Fetch, m.body = .fetch f → t.coll =
          if s.coll.state = .running
              ∧ f = ⟨s.coll.target, s.coll.leg, s.coll.trig, s.coll.criterion, s.coll.cursor⟩ then
            { s.coll with answer := some (t.now + 20000000) }
          else s.coll)
      ∧ ((∀ f : Fetch, m.body ≠ .fetch f) → t.coll = s.coll)
      ∧ (∀ (body : List Byte) (i : Fin 8) (order : Nat) (c : Capture), m.body = .parcel body (some (i, order)) →
          s.slot i = some c → c.order = order → c.state = .held → t.slot i = some { c with state := .retrieved })
      ∧ t.lanes = s.lanes ∧ t.tuners = s.tuners ∧ t.ctxs = s.ctxs ∧ t.roster = s.roster ∧ t.interval = s.interval

/-- The end of the abort mark releases the line; QUIET ends with its timer; more than 64 dominant bits give STUCK, counted,
with LINE_FAULT; an idle run of 8 ends it, in QUIET if the quiet timer still runs. -/
def Obligations.LineModesFollowTimers : Prop :=
  ∀ (d : Nat) (s : State),
    (s.line.abortMark = some d →
      exec .abortMarkEnd s = .next { s with
        now := max s.now d
        line := { s.line with
          abortMark := none, idleRun := 0, domRun := min 255 (s.line.domRun + (d - s.now) / 1000) } }) ∧
    (s.line.quietTimer = some d →
      exec .quietTimerExpiry s = .next { s with
        now := max s.now d
        line := { s.line with quietTimer := none, mode := if s.line.mode = .stuck then .stuck else .normal } }) ∧
    (s.phase = .running → s.line.mode ≠ .stuck → s.line.attempt = none → s.line.underWay = false →
      ∃ t : State, exec .stuckEntry s = .next t
        ∧ t.line = { s.line with
            mode := .stuck, idleRun := 0, domRun := max s.line.domRun 65
            stuckEntries := if s.line.stuckEntries < 65535 then s.line.stuckEntries + 1 else s.line.stuckEntries }
        ∧ t.port.has .lineFault ∧ s.port.SameButCauses t.port ∧ t = { s with line := t.line, port := t.port }) ∧
    (s.line.mode = .stuck →
      exec .stuckExit s = .next { s with line := { s.line with
        mode := if s.line.quietTimer = none then .normal else .quiet, idleRun := 8, domRun := 0 } })

/-- The part finds a format error exactly where the sender field or the body shows a fault of R105, kind by kind.  A message
with one, or with a check that fails, is under way up to one of its bits and ends there, at the arbitration field for a faulty
sender: it is counted as a line error, nothing of it is handed on, and the dominant run is that of the bits read.  So ends a
message whose kind field begins with two ones at the second, and any message at a dominant separator.  Bits act one after the
other: outside a message a recessive one adds to the idle run and ends the dominant run, a dominant one the reverse, and on a
line that is idle it is a start mark.  Another station's message that has a format error, or that the station does not take, is
read as its bits.  A station that sends, marks an abort or still loads reads none.  That the bits come with the command is the
model's form (logs 3, 33). -/
def Obligations.FormatErrorIsDiscarded : Prop :=
  ∀ (k : MsgKind) (sender : Nat) (body : List Byte) (pr : Fin 4) (check : BitVec 16) (levels more : List Bool) (s : State),
    let head := headBits pr.val sender k body
    let bits := framed (head ++ natBits 16 check.toNat)
    let wire := wireOf pr.val sender k body
    let hears := s.phase = .running ∧ s.line.attempt = none ∧ s.line.abortMark = none
    let up := fun (n : Nat) => if n < 255 then n + 1 else n
    let discarded := fun (n run : Nat) (start : Option Nat) => { s with
      now := s.now + 1000 * n
      line := { s.line with
        lineErrors := if s.line.lineErrors < 65535 then s.line.lineErrors + 1 else s.line.lineErrors
        underWay := false, startMark := start, heard := [], idleRun := 0, domRun := run } }
    (FormatError k sender body ↔ bodyWellFormed k sender body = false) ∧
    (Reads bits s → s.line.underWay = false → sender < 16 → body.length < 32 →
      FormatError k sender body ∨ check ≠ crcBits head →
      ∃ n run : Nat, 0 < n ∧ n ≤ bits.length ∧ (8 < sender → n ≤ 7)
        ∧ exec (.messageDiscarded (bits.take n)) s = .next (discarded n run (some s.now))
        ∧ (∀ (before : List Bool) (m : Nat), bits.take n = before ++ true :: List.replicate m false → run = m)
        ∧ ∀ m : Nat, 0 < m → m < n → ∃ t : State, exec (.messageDiscarded (bits.take m)) s = .next t
            ∧ t.line.underWay = true ∧ t.line.heard = bits.take m ∧ t.line.lineErrors = s.line.lineErrors
            ∧ t.line.received = s.line.received) ∧
    (hears → s.line.underWay = true → s.line.heard.length = 8 → s.line.heard.getLast? = some true →
      exec (.messageDiscarded [true]) s = .next (discarded 1 0 s.line.startMark)) ∧
    (hears → s.line.underWay = true → s.line.heard ≠ [] → s.line.heard.length % 9 = 0 →
      exec (.messageDiscarded [false]) s = .next (discarded 1 (up s.line.domRun) s.line.startMark)) ∧
    (hears → s.line.underWay = false →
      exec (.messageDiscarded [true]) s = .next { s with
        now := s.now + 1000, line := { s.line with idleRun := up s.line.idleRun, domRun := 0 } } ∧
      exec (.messageDiscarded [false]) s = .next { s with
        now := s.now + 1000
        line := if s.line.mode ≠ .stuck ∧ 8 ≤ s.line.idleRun then { s.line with
            idleRun := 0, domRun := up s.line.domRun, underWay := true, startMark := some s.now, heard := [false] }
          else { s.line with idleRun := 0, domRun := up s.line.domRun } }) ∧
    exec (.messageDiscarded []) s = .next s ∧
    (∀ t : State, exec (.messageDiscarded levels) s = .next t →
      exec (.messageDiscarded (levels ++ more)) s = exec (.messageDiscarded more) t) ∧
    (Reads wire s → FormatError k sender body → exec (receiveOf k sender body pr) s =
      exec (.messageDiscarded (if s.line.underWay then wire.drop s.line.heard.length else wire)) s) ∧
    (¬ Reads wire s → exec (receiveOf k sender body pr) s = exec (.messageDiscarded wire) s) ∧
    (¬ hears → exec (receiveOf k sender body pr) s = .next s ∧ exec (.messageDiscarded levels) s = .next s)

/-- A BEACON from another station fills or replaces that station's roster entry, fresh and aged from now, with PLAN_DIFFERS
by R131, counts as a completion, sets the counter of an unsynced station alone, and is handed to the context whose far
station sent it, which takes it by chapter 8.  The model's reading of what chapter 8 leaves open: a running supervision timer
is not restarted (log 13), a far claim whose handing releases a PLAN_MISMATCH hold is not followed by a context without a
claim of its own (log 14), a far claim that meets the own claim of a lower-numbered station is read no further (log 15), and an
entry to the hold leaves the fault-hold timer (log 25). -/
def Obligations.BeaconIsTaken : Prop :=
  ∀ (st : Station) (body : List Byte) (b : BeaconBody) (pr : Fin 4) (s : State),
    Reads (wireOf pr.val st.val .beacon body) s → decodeBeacon body = some b → st ≠ s.station →
    ∃ (t : State) (e : Entry), exec (.beaconReceived st.val body pr) s = .next t
      ∧ t.now = s.heardBy body.length ∧ e ∈ t.roster ∧ e.station = st ∧ e.role = b.role ∧ e.plan = b.plan ∧ e.frontClass = b.frontClass
      ∧ e.trig = b.trig ∧ e.synced = b.synced ∧ e.summaries = b.summaries ∧ e.heardAt = t.now ∧ e.fresh = true
      ∧ e.heard = (match s.entry? st with
          | none => 1
          | some old => satInc 65535 old.heard)
      ∧ (e.differs = true ↔ b.plan ≠ s.straps.plan ∨ (b.role = .trunk ∧ st ≠ 0) ∨ (b.role = .leg ∧ st = 0)
          ∨ (b.role = .leg ∧ s.straps.role = .leg ∧ b.frontClass ≠ s.image.frontClass))
      ∧ (∀ x ∈ t.roster, x = e ∨ x ∈ s.roster) ∧ (∀ x ∈ s.roster, x.station ≠ st → x ∈ t.roster)
      ∧ t.line.received = satInc 65535 s.line.received ∧ t.line.clash = s.line.clash
      ∧ (s.line.synced = false → t.line.trig = b.trig ∧ t.line.synced = true)
      ∧ (s.line.synced = true → t.line.trig = s.line.trig ∧ t.line.synced = true)
      ∧ t.line.slips = s.line.slips
      ∧ (∀ L ∈ s.legs, (t.ctx L).far = if s.farStation L = st then
            (if e.differs then .planDiffers (e.summary? L)
             else match e.summary? L with
              | none => .absent
              | some f => .fresh f)
          else (s.ctx L).far)
      ∧ (∀ (L : Leg) (c : Ctx), (s.legs.filter fun M => s.farStation M == st) = [L] → s.ctx? L = some c →
          ∃ c' : Ctx, t.ctx? L = some c' ∧ TakesFar L s t (t.ctx L).far c c')
      ∧ t.peerLost = s.peerLost ∧ t.coll = s.coll ∧ t.interval = s.interval ∧ t.image = s.image ∧ t.straps = s.straps

/-- A received ALERT moves the trigger counter to its number, a slip being counted where a synced station expected another.
With an action that names one context and a slot to take, a capture opens around T = c − age − D with the retained records
of its window; what is FILLING or HELD stays. -/
def Obligations.AlertIsFollowed : Prop :=
  ∀ (st : Station) (body : List Byte) (a : AlertBody) (pr : Fin 4) (s : State),
    Reads (wireOf pr.val st.val .alert body) s → decodeAlert body = some a →
    ∃ t : State, exec (.alertReceived st.val body pr) s = .next t
      ∧ t.now = s.heardBy body.length ∧ t.line.trig = a.trig ∧ t.line.synced = true
      ∧ t.line.slips = (if s.line.synced = true ∧ a.trig ≠ s.line.trig + 1 then satInc 65535 s.line.slips
          else s.line.slips)
      ∧ t.line.received = satInc 65535 s.line.received
      ∧ t.line.clash = (s.line.clash || decide (st = s.station))
      ∧ (st = s.station → t.line.clashes = satInc 65535 s.line.clashes ∧ t.port.has .clash)
      ∧ (∀ (i : Fin 8) (c : Capture), s.slot i = some c → c.state ≠ .retrieved → t.slot i = some c)
      ∧ (∀ (i : Fin 8) (L : Leg), s.allocate = some i →
          actionLegs s (windowAction s.image (alertKey st a.leg a.cause)) a.leg = [L] →
          ∃ c : Capture, t.slot i = some c ∧ c.trig = some a.trig ∧ c.origin = st ∧ c.leg = L ∧ c.cause = a.cause
            ∧ c.t = s.interval - BitVec.ofNat 16 (a.age + s.image.lineDelay)
            ∧ c.isLocal = false ∧ c.unshared = false ∧ c.link = none
            ∧ OpensWith s.image s.interval (s.ctx L).ring c
            ∧ (c.state = .filling ∨ c.state = .held ∧ t.port.has .captureDone))
      ∧ (s.allocate = none →
          ∀ L : Leg, actionLegs s (windowAction s.image (alertKey st a.leg a.cause)) a.leg = [L] →
          t.slots = s.slots ∧ t.overflow = true ∧ t.lost = satInc 65535 s.lost ∧ t.port.has .captureLost)
      ∧ t.lanes = s.lanes ∧ t.tuners = s.tuners ∧ t.ctxs = s.ctxs ∧ t.roster = s.roster ∧ t.coll = s.coll
      ∧ t.interval = s.interval

/-- A HUSH from the far station of a context sends it from RISING, READY, UP or FAULTED into DORMANT, its timers stopped, flags
and retry count cleared, its engines in WAITING; a WAKE takes it out of DORMANT.  Otherwise neither is acted on. -/
def Obligations.SleepMessagesMoveFarLeg : Prop :=
  ∀ (st : Station) (body : List Byte) (L : Leg) (c : Ctx) (pr : Fin 4) (s : State),
    decodeSleep body = some L → s.ctx? L = some c → st ≠ s.station →
    let counted := s.counted body.length
    let acts := s.farStation L = st ∧ c.state.awake = true ∧ c.mismatchHeld = false
    (Reads (wireOf pr.val st.val .hush body) s → ∃ t : State, exec (.hushReceived st.val body pr) s = .next t
      ∧ (¬ acts → t = counted)
      ∧ (acts → ∃ c' : Ctx, t.ctx? L = some c' ∧ c'.state = .dormant ∧ c'.cause = c.cause
          ∧ c'.solo = none ∧ c'.faultHold = none ∧ c'.up = none ∧ c'.dormancy = none ∧ c'.claimWait = none
          ∧ c'.unattended = false ∧ c'.held = false ∧ c'.retry = 0 ∧ c'.claim = false
          ∧ (c.claim = true → c'.outcome = some .aborted ∧ c'.role = some .claimant ∧ t.port.has .checkDone)
          ∧ t.port.has .legChange ∧ (∀ k ∈ s.frontLanes L, (t.tuner k).st = .waiting)
          ∧ LegFrame L counted t)) ∧
    (Reads (wireOf pr.val st.val .wake body) s → ∃ u : State, exec (.wakeReceived st.val body pr) s = .next u
      ∧ (¬ (s.farStation L = st ∧ c.state = .dormant) → u = counted)
      ∧ (s.farStation L = st → c.state = .dormant → (u.ctx L).state ≠ .dormant ∧ u.port.has .legChange
          ∧ (∀ k ∈ s.frontLanes L, (u.tuner k).taps = s.image.frontTaps.get k) ∧ LegFrame L counted u))

/-- A FETCH addressed to this in-plan station is answered by one PARCEL that joins the bulk queue last, addressed to its
sender and with its leg, number and cursor: NOT_FOUND without a finished capture, NONE and LAST with nothing selected, LAST
where its digests end the selection.  With four messages in the bulk queue it is dropped and counted. -/
def Obligations.FetchIsServedOrDropped : Prop :=
  ∀ (st : Station) (body : List Byte) (f : Fetch) (pr : Fin 4) (s : State),
    Reads (wireOf pr.val st.val .fetch body) s → decodeFetch body = some f → st ≠ s.station → s.outOfPlan = false →
    ∃ l : Line, exec (.fetchReceived st.val body pr) s = .next { s with now := s.heardBy body.length, line := l }
      ∧ l.received = satInc 65535 s.line.received
      ∧ (f.target ≠ s.station → places l.bulk = (s.line.bulk.map fun m => (m.join, satInc 255 m.waits))
          ∧ l.fetchDrops = s.line.fetchDrops)
      ∧ (f.target = s.station → 4 ≤ s.line.bulk.length →
          places l.bulk = (s.line.bulk.map fun m => (m.join, satInc 255 m.waits))
          ∧ l.fetchDrops = satInc 65535 s.line.fetchDrops)
      ∧ (f.target = s.station → s.line.bulk.length < 4 → ∃ (p : ParcelBody) (rel : Option (Fin 8 × Nat)),
          l.bulk.getLast? = some ⟨s.line.nextJoin, 0, 0, .parcel (encodeParcel p) rel⟩
          ∧ l.bulk.length = s.line.bulk.length + 1 ∧ l.fetchDrops = s.line.fetchDrops
          ∧ p.requester = st ∧ p.leg = f.leg ∧ p.trig = f.trig ∧ p.cursor = f.cursor
          ∧ digestCount p.groups ≤ 4 ∧ parcelBytes p.groups.length (digestCount p.groups) ≤ 24
          ∧ (match s.findCapture f.trig f.leg with
              | none => p.notFound = true ∧ p.last = false ∧ p.groups = [] ∧ rel = none
              | some (i, c) =>
                let n := (selection s.image.markTail f.criterion c.records).length
                p.notFound = false ∧ p.truncated = c.truncated ∧ (p.none = true ↔ n = 0)
                  ∧ (p.last = true ↔ n ≤ f.cursor.toNat + digestCount p.groups)
                  ∧ (p.last = true → rel = some (i, c.order)) ∧ (p.last = false → rel = none)))

/-- A PARCEL for this station that does not answer the latest FETCH of a RUNNING unit is discarded and counted late.  One
that does acts by the first row of R193: NOT_FOUND, NONE or LAST end the collection; digests alone move the cursor and hand
out the next FETCH, or end the collection where the cursor would pass 255, the cursor and the timeouts staying then (log 35);
no digest is a timeout.  TRUNCATED is set by the PARCEL's own and by a digest that finds the buffer full. -/
def Obligations.ParcelIsTakenOrLate : Prop :=
  ∀ (st : Station) (body : List Byte) (p : ParcelBody) (pr : Fin 4) (s : State),
    Reads (wireOf pr.val st.val .parcel body) s → decodeParcel body = some p → st ≠ s.station → p.requester = s.station →
    ∃ t : State, exec (.parcelReceived st.val body pr) s = .next t
      ∧ t.now = s.heardBy body.length ∧ t.line.received = satInc 65535 s.line.received
      ∧ t = { s with now := t.now, line := t.line, coll := t.coll, port := t.port }
      ∧ (let answers := s.coll.state = .running ∧ st = s.coll.target ∧ p.trig = s.coll.trig ∧ p.leg = s.coll.leg
           ∧ p.cursor = s.coll.cursor
         let n := digestCount p.groups
         let all := s.coll.buffer ++ p.groups.flatMap fun g => g.2.mapIdx fun i d => (g.1 + (i : Int), d)
         let seen := { s.coll with truncated := s.coll.truncated || p.truncated }
         let taken := { seen with buffer := all.take 32, truncated := seen.truncated || decide (32 < all.length) }
         let done := fun (c : Collection) (e : EndFlag) =>
           t.coll = { c with state := .done, answer := none, endFlag := some e } ∧ t.port.has .collectDone
         let fetch := fun (cursor : Byte) =>
           ({ target := s.coll.target, leg := s.coll.leg, trig := s.coll.trig, criterion := s.coll.criterion
              cursor := cursor } : Fetch)
         let goes := fun (c : Collection) =>
           t.coll = { c with answer := some (t.now + 20000000) } ∧ t.port = s.port
             ∧ (s.outOfPlan = false → t.line.handsOut (fetch c.cursor))
         (¬ answers → t.coll = { s.coll with late := satInc 65535 s.coll.late } ∧ t.port = s.port) ∧
         (answers → p.notFound = true → done seen .notFound) ∧
         (answers → p.notFound = false → p.none = true → done seen .none) ∧
         (answers → p.notFound = false → p.none = false → p.last = true → done taken .last) ∧
         (answers → p.notFound = false → p.none = false → p.last = false → 0 < n →
            (s.coll.cursor.toNat + n ≤ 255 →
              goes { taken with cursor := s.coll.cursor + BitVec.ofNat 8 n, timeouts := 0 }) ∧
            (255 < s.coll.cursor.toNat + n → done { taken with truncated := true } .last)) ∧
         (answers → p.notFound = false → p.none = false → p.last = false → n = 0 →
            (s.coll.timeouts < 2 → goes { seen with timeouts := s.coll.timeouts + 1 }) ∧
            (2 ≤ s.coll.timeouts →
              t.coll = { seen with state := .failed, answer := none } ∧ t.port.has .collectDone)))

/-! ## Roster (chapter 7) -/

/-- A FRESH entry at three beacon periods becomes STALE, and an entry at twelve is removed and counted as a lost peer; the
contexts whose far station it is are handed STALE or ABSENT: one that is UP is then unattended, a PLAN_MISMATCH hold is
released, and a running supervision timer is not restarted (the model's reading, log 13).  Every other entry stays. -/
def Obligations.EntriesAge : Prop :=
  ∀ (st : Station) (e : Entry) (s : State), s.entry? st = some e →
    let period := 1000000 * 2 ^ (s.image.beaconCode + 1)
    let handed := fun (r : FarResult) (t : State) =>
      (∀ L ∈ s.legs, (t.ctx L).far = (if s.farStation L = st then r else (s.ctx L).far)
        ∧ (s.farStation L = st → (s.ctx L).state = .up → s.outOfPlan = false →
            (t.ctx L).state = .up ∧ (t.ctx L).unattended = true))
        ∧ ∀ (L : Leg) (c : Ctx), (s.legs.filter fun M => s.farStation M == st) = [L] → s.ctx? L = some c →
            ∃ c' : Ctx, t.ctx? L = some c' ∧ TakesFar L s t r c c'
    (e.fresh = true →
      ∃ t : State, exec (.entryStale st) s = .next t
        ∧ t.now = max s.now (e.heardAt + 3 * period) ∧ t.entry? st = some { e with fresh := false }
        ∧ (∀ x : Station, x ≠ st → t.entry? x = s.entry? x) ∧ t.peerLost = s.peerLost ∧ handed .stale t
        ∧ (∀ L : Leg, (s.legs.filter fun M => s.farStation M == st) = [L] →
            LegFrame L { s with roster := t.roster } t)) ∧
    (e.fresh = false → exec (.entryStale st) s = .next s) ∧
    ∃ t : State, exec (.entryRemoved st) s = .next t
      ∧ t.now = max s.now (e.heardAt + 12 * period) ∧ t.roster = s.roster.filter (fun x => x.station ≠ st)
      ∧ t.peerLost = satInc 65535 s.peerLost ∧ handed .absent t
      ∧ (∀ L : Leg, (s.legs.filter fun M => s.farStation M == st) = [L] →
          LegFrame L { s with roster := t.roster, peerLost := t.peerLost } t)

/-! ## Leg timers (chapter 8) -/

/-- The solo timer takes a context whose far end is silent to UP, unattended, and otherwise runs again; the end of the fault
hold takes an unheld FAULTED context to RISING with its engines restarted, and on to a PLAN_MISMATCH hold under a far plan
that differs; at another context it only stops the timer (the model's reading, log 25); 10 s of UP clear the retry count; the
dormancy timer queues a HUSH and enters DORMANT; the end of the claim wait gives NO_PARTNER.  Every step keeps each timer of a
context to the leg states it runs in, and the dormancy timer running just while its condition holds. -/
def Obligations.LegTimersMoveLegs : Prop :=
  (∀ (L : Leg) (c : Ctx) (d : Nat) (s : State), s.ctx? L = some c →
    let at' := max s.now d
    (c.solo = some d →
      ((c.far = .absent ∨ c.far = .stale) →
        ∃ (t : State) (c' : Ctx), exec (.soloTimerExpiry L) s = .next t ∧ t.ctx? L = some c' ∧ c'.state = .up
          ∧ c'.cause = .none ∧ c'.unattended = true ∧ c'.solo = none ∧ c'.up = some (at' + 10000000000)
          ∧ c'.retry = c.retry ∧ LegFrame L s t) ∧
      (c.far ≠ .absent → c.far ≠ .stale →
        exec (.soloTimerExpiry L) s = .next (({ s with now := at' } : State).modCtx L fun x =>
          { x with solo := some (at' + 500000000 * 2 ^ s.image.soloCode) }))) ∧
    (c.faultHold = some d →
      (c.state = .faulted → c.held = false → c.far.differs = false → s.frontLanes L ≠ [] →
        ∃ (t : State) (c' : Ctx), exec (.faultHoldExpiry L) s = .next t ∧ t.ctx? L = some c' ∧ c'.state = .rising
          ∧ c'.cause = c.cause ∧ c'.retry = c.retry ∧ c'.faultHold = none ∧ t.port.has .legChange
          ∧ (∀ k ∈ s.frontLanes L, (t.tuner k).taps = s.image.frontTaps.get k
              ∧ (t.tuner k).st = if (s.lane (frontLane k)).rx = .locked then .tuning else .waiting)
          ∧ LegFrame L s t) ∧
      (c.state = .faulted → c.held = false → c.far.differs = true →
        ∃ (t : State) (c' : Ctx), exec (.faultHoldExpiry L) s = .next t ∧ t.ctx? L = some c' ∧ c'.state = .faulted
          ∧ c'.cause = .planMismatch ∧ c'.held = true ∧ c'.retry = c.retry ∧ c'.faultHold = none ∧ c'.dormancy = none
          ∧ t.port.has .legChange ∧ (∀ k ∈ s.frontLanes L, (t.tuner k).taps = s.image.frontTaps.get k)
          ∧ LegFrame L s t) ∧
      ((c.state ≠ .faulted ∨ c.held = true) →
        exec (.faultHoldExpiry L) s = .next (({ s with now := at' } : State).modCtx L fun x =>
          { x with faultHold := none }))) ∧
    (c.up = some d →
      exec (.upTimerExpiry L) s = .next (({ s with now := at' } : State).modCtx L fun x =>
        { x with up := none, retry := 0 })) ∧
    (c.dormancy = some d →
      ∃ (t : State) (c' : Ctx), exec (.dormancyTimerExpiry L) s = .next t ∧ t.ctx? L = some c' ∧ c'.state = .dormant
        ∧ c'.solo = none ∧ c'.faultHold = none ∧ c'.up = none ∧ c'.dormancy = none ∧ c'.claimWait = none
        ∧ c'.retry = 0 ∧ c'.held = false ∧ c'.unattended = false ∧ c'.claim = false ∧ c'.cause = c.cause
        ∧ (s.outOfPlan = false →
            (∃ m ∈ t.line.status, m.body = .sleep .hush L) ∨ t.line.owedSleep.get L = some .hush)
        ∧ LegFrame L s t) ∧
    (c.claimWait = some d →
      ∃ (t : State) (c' : Ctx), exec (.claimWaitExpiry L) s = .next t ∧ t.ctx? L = some c' ∧ t.port.has .checkDone
        ∧ c' = { c with claim := false, claimWait := none, outcome := some .noPartner } ∧ LegFrame L s t)) ∧
  ∀ s t : State, UntouchedBeforeLoad s → DormancyTimerRuns s → TimersFitState s → step s = .next t →
    DormancyTimerRuns t ∧ TimersFitState t

/-- At its timer a check ends, the counts of the checkers that are armed being its result: PASS where the far end is in CHECK
and no lane's pattern count exceeds the limit, FAIL where one does, ABORTED where the far end is not in CHECK; a FAIL
originates an alert.  A claimant goes on into the release phase with PASS or FAIL, and every other end, that of the
supervision timer and of the release phase among them, leads to RISING and on from there. -/
def Obligations.CheckEnds : Prop :=
  ∀ (L : Leg) (c : Ctx) (d : Nat) (s : State), s.ctx? L = some c →
    let at' := max s.now d
    let counts := (s.cableLanes L).mapIdx fun i k =>
      if (s.checker k).armed then (s.checker k).count else c.patternCounts.getD i 0
    let outcome : CheckOutcome := if c.far.inCheck then
        (if ∀ n ∈ counts, n ≤ s.image.checkLimit then .pass else .fail) else .aborted
    let risen : LegState := if c.far.differs then .faulted
      else if c.frontOk && c.cableOk then (if c.far.carriesUp then .up else .ready) else .rising
    (c.check = some d →
      ∃ (t : State) (c' : Ctx), exec (.checkTimerExpiry L) s = .next t ∧ t.ctx? L = some c'
        ∧ c'.outcome = some outcome ∧ c'.patternCounts = counts ∧ c'.claim = false ∧ c'.check = none
        ∧ c'.supervision = none ∧ t.port.has .checkDone
        ∧ (∀ k ∈ s.cableLanes L, (t.checker k).armed = false ∧ (t.checker k).count = (s.checker k).count)
        ∧ (c.role = some .claimant → outcome ≠ .aborted →
            c'.state = c.state ∧ c'.release = some (at' + 4 * s.beaconPeriod))
        ∧ ((c.role ≠ some .claimant ∨ outcome = .aborted) → c'.state = risen ∧ c'.release = c.release)
        ∧ (outcome = .fail → s.originates .checkFail = true → s.outOfPlan = false → s.line.urgent.length < 2 →
            ∃ m ∈ t.line.urgent, m.waits = 0 ∧ m.fails = 0 ∧ m.body = .alert L 2 0)
        ∧ LegFrame L s t) ∧
    (c.supervision = some d →
      ∃ (t : State) (c' : Ctx), exec (.supervisionTimerExpiry L) s = .next t ∧ t.ctx? L = some c'
        ∧ c'.outcome = some .aborted ∧ c'.claim = false ∧ c'.check = none ∧ c'.supervision = none
        ∧ c'.patternCounts = counts ∧ t.port.has .checkDone ∧ c'.state = risen ∧ LegFrame L s t) ∧
    (c.release = some d →
      ∃ (t : State) (c' : Ctx), exec (.checkReleaseTimerExpiry L) s = .next t ∧ t.ctx? L = some c'
        ∧ c'.release = none ∧ c'.outcome = c.outcome ∧ c'.role = c.role ∧ c'.state = risen ∧ LegFrame L s t)

/-! ## Management port (chapter 10) -/

/-- Until the end of the load every request is answered BUSY and has no other effect.  A write transaction is malformed, and
answered BAD_ARGUMENT, where its length byte does not tell the bytes that follow or its arguments have not the length of
its code; a code of no request is answered UNKNOWN_REQUEST; an empty one is no request.  None has another effect. -/
def Obligations.RefusedRequestsOnlyReply : Prop :=
  ∀ s : State,
    (s.phase ≠ .running → ∀ r : Request, exec r.command s = .next (s.replied .busy r.code [])) ∧
    exec (.unknownRequest []) s = .next s ∧
    (∀ (code : Byte), exec (.unknownRequest [code]) s =
        .next (s.replied (if s.phase = .running then .badArgument else .busy) code [])) ∧
    (∀ (code len : Byte) (args : List Byte),
      let known := (1 ≤ code.toNat ∧ code.toNat ≤ 8) ∨ (0x10 ≤ code.toNat ∧ code.toNat ≤ 0x14)
        ∨ (0x18 ≤ code.toNat ∧ code.toNat ≤ 0x1A)
      (args.length ≠ len.toNat → exec (.unknownRequest (code :: len :: args)) s =
        .next (s.replied (if s.phase = .running then .badArgument else .busy) code [])) ∧
      (args.length = len.toNat → ¬ known → exec (.unknownRequest (code :: len :: args)) s =
        .next (s.replied (if s.phase = .running then .unknownRequest else .busy) code [])) ∧
      (args.length = len.toNat → known → (∀ r : Request, requestOf code args ≠ some r) →
        exec (.unknownRequest (code :: len :: args)) s =
          .next (s.replied (if s.phase = .running then .badArgument else .busy) code [])) ∧
      (args.length = len.toNat → ∀ r : Request, requestOf code args = some r →
        exec (.unknownRequest (code :: len :: args)) s = exec r.command s))

/-- A reading request answers with the fields R196 names for it, in the order and the widths of R197 (the layouts of
Machine/Layouts.lean, READ_STATION in 78 bytes and a record in 32), refuses an argument out of its range with BAD_ARGUMENT and
one that finds nothing with NOT_FOUND, and changes nothing but the held reply; READ_CAPTURE alone makes a HELD capture
RETRIEVED, at a read that covers its last record. -/
def Obligations.ReadsChangeOnlyTheReply : Prop :=
  ∀ s : State, s.phase = .running →
    (stationLayout s).length = 78 ∧ (∀ r : Record, (recordLayout r).length = 32) ∧
    exec .readStation s = .next (s.replied .ok 0x01 (stationLayout s)) ∧
    (∀ a : Byte, exec (.readLeg a) s = .next (match s.heldLeg a with
      | none => s.replied .badArgument 0x02 []
      | some L => s.replied .ok 0x02 (legLayout s L (s.ctx L)))) ∧
    (∀ l : Lane, exec (.readLane (byteOf l.val)) s = .next (s.replied .ok 0x03 (laneLayout s l))) ∧
    (∀ a : Byte, 16 ≤ a.toNat → exec (.readLane a) s = .next (s.replied .badArgument 0x03 [])) ∧
    (∀ a : Byte, exec (.readRoster a) s = .next (
      if 8 ≤ a.toNat then s.replied .badArgument 0x04 []
      else match s.roster[a.toNat]? with
        | none => s.replied .notFound 0x04 (Wire.num 1 s.roster.length)
        | some e => s.replied .ok 0x04 (Wire.num 1 s.roster.length ++ entryLayout s.now e))) ∧
    (∀ a age : Byte, (s.heldLeg a = none ∨ 64 ≤ age.toNat) →
      exec (.readRecord a age) s = .next (s.replied .badArgument 0x05 [])) ∧
    (∀ (a age : Byte) (L : Leg), s.heldLeg a = some L → age.toNat < 64 →
      let ring := (s.ctx L).ring
      (ring.length ≤ age.toNat → exec (.readRecord a age) s = .next (s.replied .notFound 0x05 (Wire.num 1 ring.length))) ∧
      (∀ r : Record, ring[ring.length - 1 - age.toNat]? = some r → age.toNat < ring.length →
        exec (.readRecord a age) s = .next (s.replied .ok 0x05
          (recordLayout r ++ Wire.num 1 ring.length ++ Wire.num 2 s.interval.toNat)))) ∧
    (∀ a : Byte, exec (.readCollection a) s = .next (
      if 32 ≤ a.toNat then s.replied .badArgument 0x07 []
      else match s.coll.buffer[a.toNat]? with
        | none => s.replied .notFound 0x07 (collLayout s.coll)
        | some x => s.replied .ok 0x07 (collLayout s.coll ++ bufferLayout x))) ∧
    (∀ a r : Byte, (s.slotCount ≤ a.toNat ∨ 8 ≤ a.toNat ∨ 32 ≤ r.toNat) →
      exec (.readCapture a r) s = .next (s.replied .badArgument 0x06 [])) ∧
    (∀ (i : Fin 8) (r : Byte), i.val < s.slotCount → r.toNat < 32 →
      (s.slot i = none → exec (.readCapture (byteOf i.val) r) s = .next (s.replied .notFound 0x06 [])) ∧
      (∀ c : Capture, s.slot i = some c →
        let full := c.records = [] ∨ r.toNat + 1 = c.records.length
        let c' := if c.state = .held ∧ full then { c with state := .retrieved } else c
        exec (.readCapture (byteOf i.val) r) s = .next (
          let t := ({ s with slots := s.slots.set i.val (some c') i.isLt } : State)
          match c.records[r.toNat]? with
          | none => t.replied .notFound 0x06 (captureLayout c')
          | some x => t.replied .ok 0x06 (captureLayout c' ++ recordLayout x))))

/-- The attention sets.  READ_ATTENTION answers both sets and the output, then clears the enabled causes; SET_ENABLES and
FORCE_CAUSE change their set, refusing bits 9 to 15; the output is released when no enabled cause is left, which starts
the 10 ms throttle, and asserted with one unless the throttle runs; at its expiry it is asserted if one is set. -/
def Obligations.AttentionIsReadAndCleared : Prop :=
  ∀ s : State,
    let settled := fun (p : Port) (now : Nat) (throttle : Timer) =>
      let wants := decide (p.causes &&& p.enables ≠ 0)
      { p with
        asserted := wants && (s.port.asserted || throttle.isNone)
        throttle := if s.port.asserted && !wants then some (now + 10000000) else throttle }
    (s.phase = .running →
      exec .readAttention s = .next (s.modPort fun p =>
        settled { p with
          reply := ⟨.ok, 0x08, natBytes 2 p.causes.toNat ++ natBytes 2 p.enables.toNat
            ++ [if p.asserted then 1 else 0]⟩
          causes := p.causes &&& ~~~p.enables } s.now p.throttle)) ∧
    (s.phase = .running → ∀ m : BitVec 16,
      (512 ≤ m.toNat → exec (.setEnables m) s = .next (s.replied .badArgument 0x18 [])
        ∧ exec (.forceCause m) s = .next (s.replied .badArgument 0x19 [])) ∧
      (m.toNat < 512 →
        exec (.setEnables m) s = .next (s.modPort fun p =>
          settled { p with reply := ⟨.ok, 0x18, natBytes 2 m.toNat⟩, enables := m.setWidth 9 } s.now p.throttle) ∧
        exec (.forceCause m) s = .next (s.modPort fun p =>
          settled { p with
            reply := ⟨.ok, 0x19, natBytes 2 (p.causes ||| m.setWidth 9).toNat⟩
            causes := p.causes ||| m.setWidth 9 } s.now p.throttle))) ∧
    (∀ d : Nat, s.port.throttle = some d →
      exec .throttleExpiry s = .next { s with
        now := max s.now d, port := settled s.port (max s.now d) none })

/-- RESTART_LEG starts a context over: its lanes in SEEK and HUNT with their counters kept, its engines at INITIAL in
WAITING, its checkers disarmed at 0, its segments in SEARCH with strain 0 and grade GOOD, every timer but dormancy stopped,
the ring kept; it rises again, a DORMANT one with a WAKE, one held in PLAN_MISMATCH staying so.  That a request and a waiting
wish are each reported abandoned, though the receiver goes to SEEK, is the model's choice (log 36). -/
def Obligations.RestartLegStartsOver : Prop :=
  ∀ (a : Byte) (s : State), s.phase = .running →
    (s.heldLeg a = none → exec (.restartLeg a) s = .next (s.replied .badArgument 0x10 [])) ∧
    (∀ (L : Leg) (c : Ctx), s.heldLeg a = some L → s.ctx? L = some c → s.frontLanes L ≠ [] →
      ∃ (t : State) (c' : Ctx), exec (.restartLeg a) s = .next t ∧ t.ctx? L = some c'
        ∧ (if c.mismatchHeld then c'.state = .faulted ∧ c'.cause = .planMismatch ∧ c'.held = true ∧ c'.dormancy = none
           else if c.far.differs then c'.state = .faulted ∧ c'.cause = .planMismatch ∧ c'.held = true
            ∧ c'.dormancy = none
           else c'.state = .rising ∧ c'.cause = .none ∧ (c.state = .faulted → c'.held = false)
            ∧ c'.dormancy = (if s.frontPresent L then none else some (s.now + s.dormancyDelay)))
        ∧ c'.retry = 0 ∧ c'.claim = false ∧ c'.unattended = false ∧ c'.solo = none ∧ c'.faultHold = none
        ∧ c'.up = none ∧ c'.claimWait = none ∧ c'.check = none ∧ c'.supervision = none ∧ c'.release = none
        ∧ c'.far = c.far ∧ c'.ring = c.ring ∧ c'.frontOk = false ∧ c'.cableOk = false ∧ c'.legGrade = .good
        ∧ (∀ x y : Seg, (x = c.front ∧ y = c'.front) ∨ (x = c.cable ∧ y = c'.cable) →
            y = { x with align := .search, skew := none, skewFlag := false, acc := {}, strain := 0, grade := .good
                         lastReason := none })
        ∧ (c.state = .check → c.release = none → c'.outcome = some .aborted ∧ t.port.has .checkDone)
        ∧ (c.state ≠ .check → c'.outcome = none ∧ c'.role = none)
        ∧ (∀ l : Lane, s.owner l = some L → (t.lane l).rx = .seek ∧ (t.lane l).lock = .hunt
            ∧ (t.lane l).seekRun = (if (s.lane l).raw then some (s.now + 1000000) else none)
            ∧ (t.lane l).present = (s.lane l).present ∧ (t.lane l).lockEntries = (s.lane l).lockEntries
            ∧ (t.lane l).lockLosses = (s.lane l).lockLosses ∧ (t.lane l).markerLosses = (s.lane l).markerLosses)
        ∧ (∀ k ∈ s.frontLanes L, (t.tuner k).st = .waiting ∧ (t.tuner k).taps = s.image.frontTaps.get k
            ∧ (t.tuner k).settled = false ∧ (t.tuner k).req = none ∧ (t.tuner k).failures = (s.tuner k).failures
            ∧ (t.tuner k).wish = none ∧ (t.tuner k).reports = (s.tuner k).reports
              ++ (if (s.tuner k).req = none then [] else [.abandoned])
              ++ (if (s.tuner k).wish = none then [] else [.abandoned]))
        ∧ (∀ k ∈ s.cableLanes L, (t.checker k).armed = false ∧ (t.checker k).count = 0)
        ∧ (c.state = .dormant → s.outOfPlan = false →
            (∃ m ∈ t.line.status, m.body = .sleep .wake L) ∨ t.line.owedSleep.get L = some .wake)
        ∧ LegFrame L (s.replied .ok 0x10 []) t)

/-- CHECK_SEGMENT is refused with BUSY in DORMANT, RISING and CHECK, in PLAN_MISMATCH, with a claim of its own or of the far
end; else it sets the claim flag, starts the claim wait of four beacon periods, sets the check outcome absent and the check role
CLAIMANT, and nothing else of the context changes. -/
def Obligations.CheckSegmentClaims : Prop :=
  ∀ (a : Byte) (s : State), s.phase = .running →
    (s.heldLeg a = none → exec (.checkSegment a) s = .next (s.replied .badArgument 0x11 [])) ∧
    (∀ (L : Leg) (c : Ctx), s.heldLeg a = some L → s.ctx? L = some c →
      let refused := c.state = .dormant ∨ c.state = .rising ∨ c.state = .check ∨ c.claim = true
        ∨ (c.state = .faulted ∧ c.held = true ∧ c.cause = .planMismatch)
        ∨ (∃ f : FarSummary, c.far = .fresh f ∧ f.claim = true)
      (refused → exec (.checkSegment a) s = .next (s.replied .busy 0x11 [])) ∧
      (¬ refused → ∃ t : State, exec (.checkSegment a) s = .next t
        ∧ t.ctx? L = some { c with
            claim := true, claimWait := some (s.now + 4000000 * 2 ^ (s.image.beaconCode + 1))
            outcome := none, role := some .claimant }
        ∧ t.lanes = s.lanes ∧ t.tuners = s.tuners ∧ t.slots = s.slots
        ∧ t.port = (s.replied .ok 0x11 []).port ∧ LegFrame L (s.replied .ok 0x11 []) t))

/-- CLEAR_CAPTURES frees every slot and clears the overflow flag.  TRIGGER with an unmasked cause queues an ALERT of cause 3
for the leg, or for all, and opens a local capture around the open interval, with the retained records of its window, linked
to it; at a full urgent queue the ALERT is dropped, counted, and the capture is UNSHARED; masked, it changes nothing but the
reply. -/
def Obligations.TriggerAndClearCaptures : Prop :=
  ∀ s : State, s.phase = .running →
    exec .clearCaptures s = .next
      (({ s with slots := Vector.replicate 8 none, overflow := false } : State).replied .ok 0x12 []) ∧
    (∀ a : Byte, a ≠ 0 → s.heldLeg a = none → exec (.trigger a) s = .next (s.replied .badArgument 0x13 [])) ∧
    (∀ (a : Byte) (L : Leg), (a = 0 ∧ L = 0 ∨ s.heldLeg a = some L ∧ a ≠ 0) →
      (s.originates .manual = false → exec (.trigger a) s = .next (s.replied .ok 0x13 [])) ∧
      (s.originates .manual = true → s.outOfPlan = false →
        ∃ t : State, exec (.trigger a) s = .next t ∧ t.port.reply = ⟨.ok, 0x13, []⟩
          ∧ t = { s with slots := t.slots, nextOrder := t.nextOrder, overflow := t.overflow, lost := t.lost
                         line := t.line, port := t.port }
          ∧ (s.replied .ok 0x13 []).port.SameButCauses t.port
          ∧ t.line = (if s.line.urgent.length < 2 then { s.line with
                urgent := s.line.urgent ++ [⟨s.line.nextJoin, 0, 0, .alert L 3 0⟩], nextJoin := s.line.nextJoin + 1 }
              else { s.line with alertDrops := satInc 65535 s.line.alertDrops })
          ∧ (∀ (i : Fin 8) (c : Capture), s.slot i = some c → c.state ≠ .retrieved → t.slot i = some c)
          ∧ (∀ (i : Fin 8) (M : Leg), (if L = 0 then s.legs else [L]) = [M] → s.allocate = some i →
              ∃ c : Capture, t.slot i = some c
              ∧ c.trig = none ∧ c.origin = s.station ∧ c.leg = M ∧ c.cause = 3 ∧ c.t = s.interval ∧ c.isLocal = true
              ∧ c.unshared = decide (2 ≤ s.line.urgent.length)
              ∧ c.link = (if s.line.urgent.length < 2 then some s.line.nextJoin else none)
              ∧ OpensWith s.image s.interval (s.ctx M).ring c
              ∧ (∀ j : Fin 8, j ≠ i → t.slot j = s.slot j))
          ∧ (∀ M : Leg, (if L = 0 then s.legs else [L]) = [M] → s.allocate = none →
              t.slots = s.slots ∧ t.overflow = true ∧ t.lost = satInc 65535 s.lost ∧ t.port.has .captureLost)))

/-- COLLECT is refused with BAD_ARGUMENT for an argument out of range, or another target than itself at an out-of-plan
station, and with BUSY in RUNNING; else the unit takes the arguments, goes to RUNNING with an empty buffer, hands its FETCH
with cursor 0 to the interface and starts the 20 ms answer timer.  The first two expiries of that timer in a row hand the
FETCH out again; the third gives FAILED with COLLECT_DONE. -/
def Obligations.CollectStartsOrRefuses : Prop :=
  ∀ s : State,
    let out := fun (f : Fetch) (l : Line) =>
      (∃ m ∈ l.bulk, m.body = .fetch f) ∨ l.owedFetch = some f ∨ l.heldFetch = some f
    (s.phase = .running → ∀ target trig leg criterion : Byte,
      let refused := 8 < target.toNat ∨ leg.toNat = 0 ∨ 8 < leg.toNat ∨ 2 < criterion.toNat
        ∨ (s.outOfPlan = true ∧ target.toNat ≠ s.station.val)
      (refused → exec (.collect target trig leg criterion) s = .next (s.replied .badArgument 0x14 [])) ∧
      (¬ refused → s.coll.state = .running →
        exec (.collect target trig leg criterion) s = .next (s.replied .busy 0x14 [])) ∧
      (¬ refused → s.coll.state ≠ .running → target.toNat ≠ s.station.val →
        ∃ (l : Line) (f : Fetch), f.target.val = target.toNat ∧ f.trig = trig ∧ f.leg.val = leg.toNat
          ∧ criterionCode f.criterion = criterion.toNat ∧ f.cursor = 0 ∧ out f l
          ∧ exec (.collect target trig leg criterion) s = .next (({ s with
              line := l
              coll := { s.coll with
                state := .running, target := f.target, trig := trig, leg := f.leg, criterion := f.criterion
                cursor := 0, timeouts := 0, endFlag := none, truncated := false, buffer := []
                answer := some (s.now + 20000000) } } : State).replied .ok 0x14 []))) ∧
    (∀ d : Nat, s.coll.state = .running → s.coll.answer = some d → s.outOfPlan = false →
      (s.coll.timeouts < 2 → ∃ l : Line,
        out ⟨s.coll.target, s.coll.leg, s.coll.trig, s.coll.criterion, s.coll.cursor⟩ l
          ∧ exec .collectAnswerTimeout s = .next { s with
              now := max s.now d, line := l
              coll := { s.coll with timeouts := s.coll.timeouts + 1, answer := some (max s.now d + 20000000) } }) ∧
      (2 ≤ s.coll.timeouts → ∃ t : State, exec .collectAnswerTimeout s = .next t
        ∧ t.coll = { s.coll with state := .failed, answer := none } ∧ t.port.has .collectDone
        ∧ s.port.SameButCauses t.port ∧ t = { s with now := max s.now d, coll := t.coll, port := t.port }))

/-- A COLLECT that names its own station is served without the line and is DONE at once: NOT_FOUND without a finished
capture, NONE where the criterion selects nothing, else LAST with the digests of the first 32 selected records, in order, each
with its offset from T, and the capture RETRIEVED. -/
def Obligations.SelfServedCollectionHoldsSelection : Prop :=
  ∀ (trig leg criterion : Byte) (L : Leg) (k : Criterion) (s : State), s.phase = .running → CapturesInOrder s →
    s.image.InRange → s.coll.state ≠ .running → legOfCode leg.toNat = some L →
    criterionOfCode criterion.toNat = some k →
    ∃ t : State, exec (.collect (byteOf s.station.val) trig leg criterion) s = .next t
      ∧ t.coll.state = .done ∧ t.coll.answer = none ∧ t.coll.late = s.coll.late ∧ t.port.has .collectDone
      ∧ t.port.reply = ⟨.ok, 0x14, []⟩ ∧ t = { s with slots := t.slots, coll := t.coll, port := t.port }
      ∧ (s.findCapture trig L = none →
          t.coll.endFlag = some .notFound ∧ t.coll.buffer = [] ∧ t.slots = s.slots)
      ∧ (∀ (i : Fin 8) (c : Capture), s.findCapture trig L = some (i, c) →
          let chosen := selection s.image.markTail k c.records
          (chosen = [] → t.coll.endFlag = some .none) ∧ (chosen ≠ [] → t.coll.endFlag = some .last)
            ∧ t.coll.buffer = (chosen.map fun r => ((r.interval - c.t).toInt, digestOf r)).take 32
            ∧ (t.coll.truncated = true ↔ c.truncated = true ∨ 32 < chosen.length)
            ∧ t.slot i = some { c with state := .retrieved } ∧ ∀ j : Fin 8, j ≠ i → t.slot j = s.slot j)

/-- LOCATE 1 sets the locate flag and lights the indicator, LOCATE 0 clears it, and another value is refused.  While the flag
is set the indicator is lit and dark in turn, 500 ms each; else it shows what the image's mode asks for. -/
def Obligations.LocateBlinks : Prop :=
  ∀ s : State,
    (s.phase = .running →
      exec (.locate 1) s = .next (({ s with port := { s.port with
        locate := true, blinkLit := true, blinkTimer := some (s.now + 500000000) } } : State).replied .ok 0x1A []) ∧
      exec (.locate 0) s = .next (({ s with port := { s.port with
        locate := false, blinkLit := false, blinkTimer := none } } : State).replied .ok 0x1A []) ∧
      (∀ a : Byte, 2 ≤ a.toNat → exec (.locate a) s = .next (s.replied .badArgument 0x1A [])) ∧
      (s.port.locate = true → s.indicatorLit = s.port.blinkLit) ∧
      (s.port.locate = false → s.indicatorLit = match s.image.indicator with
        | .off => false
        | .on => true
        | .up => s.legs.all fun L => (s.ctx L).state == .up
        | .anyUp => s.legs.any fun L => (s.ctx L).state == .up
        | .good => s.legs.all fun L => (s.ctx L).state == .up && (s.ctx L).legGrade == .good
        | .fault => s.legs.any fun L => (s.ctx L).state == .faulted
        | .attention => s.port.asserted)) ∧
    (∀ d : Nat, s.port.locate = true → s.port.blinkTimer = some d →
      exec .locateBlink s = .next { s with
        now := max s.now d
        port := { s.port with blinkLit := !s.port.blinkLit, blinkTimer := some (d + 500000000) } }) ∧
    (s.port.locate = false → exec .locateBlink s = .next s)

/-! ## Encodings -/

/-- What a station puts into the body of a message, a station that receives it reads: for each kind, decode of encode gives
back every field at every value its encoding admits. -/
def Obligations.BodiesDecodeAsEncoded : Prop :=
  (∀ b : BeaconBody, (b.frontClass = 1 ∨ b.frontClass = 2) → b.summaries ≠ [] → (∀ x ∈ b.summaries, 1 ≤ x.leg.val) →
      b.summaries.Pairwise (fun x y => x.leg ≠ y.leg) → decodeBeacon (encodeBeacon b) = some b)
    ∧ (∀ a : AlertBody, alertCodeKnown a.cause = true → a.age ≤ 15 → decodeAlert (encodeAlert a) = some a)
    ∧ (∀ L : Leg, 1 ≤ L.val → decodeSleep (encodeSleep L) = some L)
    ∧ (∀ f : Fetch, 1 ≤ f.leg.val → decodeFetch (encodeFetch f) = some f)
    ∧ (∀ p : ParcelBody, 1 ≤ p.leg.val → (p.none = true ∨ p.notFound = true → p.groups = []) →
        parcelBytes p.groups.length (digestCount p.groups) ≤ 24 →
        (∀ g ∈ p.groups, -128 ≤ g.1 ∧ g.1 ≤ 127 ∧ g.2 ≠ [] ∧ g.2.length ≤ 4
          ∧ ∀ x ∈ g.2, x.frontTail ≤ 17 ∧ x.cableTail ≤ 17 ∧ x.frontU ≤ 255 ∧ x.cableU ≤ 255) →
        decodeParcel (encodeParcel p) = some p)

/-! ## Invariants -/

/-- The state after power-on meets the invariants stated below and above. -/
def Obligations.ResetMeetsInvariants : Prop :=
  UntouchedBeforeLoad State.reset ∧ AttentionFollowsCauses State.reset ∧ RosterInOrder State.reset
    ∧ CollectionInBounds State.reset ∧ HistoryInOrder State.reset ∧ QueuesWithinCapacity State.reset
    ∧ JoinsInOrder State.reset ∧ TransmittersFollowTables State.reset ∧ ReadinessIsCurrent State.reset
    ∧ UnusedLanesQuiet State.reset ∧ PresentWhileTracking State.reset ∧ MarkersOnlyLocked State.reset
    ∧ TapsStayInRange State.reset ∧ DormancyTimerRuns State.reset ∧ TimersFitState State.reset
    ∧ StrainInRange State.reset ∧ OutOfPlanKeepsQuiet State.reset

/-- Every step keeps the fixed start condition until the end of the load.  Before the load and after it, an unused lane is OFF
and in SQUELCH, a receiver in ACQUIRE, ADAPT or LOCKED has its present flag set, and only a LOCKED receiver's lane is in FOUND
or IN_LOCK. -/
def Obligations.StepKeepsStartCondition : Prop :=
  ∀ s t : State, UntouchedBeforeLoad s → step s = .next t →
    UntouchedBeforeLoad t ∧
    (UnusedLanesQuiet s → PresentWhileTracking s → UnusedLanesQuiet t ∧ PresentWhileTracking t) ∧
    (MarkersOnlyLocked s → MarkersOnlyLocked t)

/-- Every step keeps the attention output as the causes and the throttle have it. -/
def Obligations.StepKeepsAttentionOutput : Prop :=
  ∀ s t : State, UntouchedBeforeLoad s → AttentionFollowsCauses s → step s = .next t → AttentionFollowsCauses t

/-- Every step keeps the roster in ascending order without an own entry, the collection unit within its bounds, strain and
retry counts in their ranges, and history memory in order: the contexts of the plan, rings of consecutive records up to the
last closed interval, and captures whose records are those of consecutive intervals of their window. -/
def Obligations.StepKeepsRosterAndCollection : Prop :=
  ∀ s t : State, UntouchedBeforeLoad s → step s = .next t →
    (RosterInOrder s → CollectionInBounds s → RosterInOrder t ∧ CollectionInBounds t) ∧
    (StrainInRange s → StrainInRange t) ∧
    (HistoryInOrder s → HistoryInOrder t)

/-- Every step keeps the outgoing queues within their capacities: two ALERTs, one BEACON and one HUSH or WAKE for each leg,
four bulk messages, and one own FETCH at most; it keeps each queue in joining order, below the next joining order; and it
keeps an out-of-plan station silent, nothing queued, owed, held or sent, and its context held in PLAN_MISMATCH. -/
def Obligations.StepKeepsQueuesWithinCapacity : Prop :=
  ∀ s t : State, UntouchedBeforeLoad s → step s = .next t →
    (QueuesWithinCapacity s → QueuesWithinCapacity t) ∧ (JoinsInOrder s → JoinsInOrder t) ∧
    (OutOfPlanKeepsQuiet s → OutOfPlanKeepsQuiet t)
end

