-- ==== Sys2Proof/Laws/State.lean ====
section
/-! SUPPORT. One lemma for each field of State under each named update: what an update leaves as it was.  No later proof
unfolds a record update. -/

namespace Sys2Proof.Machine

variable (s : State)

/-! ### reach -/

@[simp] theorem State.reach_phase (t : Timer) : (s.reach t).phase = s.phase := rfl
@[simp] theorem State.reach_straps (t : Timer) : (s.reach t).straps = s.straps := rfl
@[simp] theorem State.reach_image (t : Timer) : (s.reach t).image = s.image := rfl
@[simp] theorem State.reach_imageDefaulted (t : Timer) : (s.reach t).imageDefaulted = s.imageDefaulted := rfl
@[simp] theorem State.reach_imageAdjusted (t : Timer) : (s.reach t).imageAdjusted = s.imageAdjusted := rfl
@[simp] theorem State.reach_adjust (t : Timer) : (s.reach t).adjust = s.adjust := rfl
@[simp] theorem State.reach_slotCount (t : Timer) : (s.reach t).slotCount = s.slotCount := rfl
@[simp] theorem State.reach_lanes (t : Timer) : (s.reach t).lanes = s.lanes := rfl
@[simp] theorem State.reach_tuners (t : Timer) : (s.reach t).tuners = s.tuners := rfl
@[simp] theorem State.reach_checkers (t : Timer) : (s.reach t).checkers = s.checkers := rfl
@[simp] theorem State.reach_splits (t : Timer) : (s.reach t).splits = s.splits := rfl
@[simp] theorem State.reach_merges (t : Timer) : (s.reach t).merges = s.merges := rfl
@[simp] theorem State.reach_ctxs (t : Timer) : (s.reach t).ctxs = s.ctxs := rfl
@[simp] theorem State.reach_interval (t : Timer) : (s.reach t).interval = s.interval := rfl
@[simp] theorem State.reach_intervalEnd (t : Timer) : (s.reach t).intervalEnd = s.intervalEnd := rfl
@[simp] theorem State.reach_slots (t : Timer) : (s.reach t).slots = s.slots := rfl
@[simp] theorem State.reach_nextOrder (t : Timer) : (s.reach t).nextOrder = s.nextOrder := rfl
@[simp] theorem State.reach_overflow (t : Timer) : (s.reach t).overflow = s.overflow := rfl
@[simp] theorem State.reach_lost (t : Timer) : (s.reach t).lost = s.lost := rfl
@[simp] theorem State.reach_line (t : Timer) : (s.reach t).line = s.line := rfl
@[simp] theorem State.reach_roster (t : Timer) : (s.reach t).roster = s.roster := rfl
@[simp] theorem State.reach_peerLost (t : Timer) : (s.reach t).peerLost = s.peerLost := rfl
@[simp] theorem State.reach_coll (t : Timer) : (s.reach t).coll = s.coll := rfl
@[simp] theorem State.reach_port (t : Timer) : (s.reach t).port = s.port := rfl
@[simp] theorem State.reach_pending (t : Timer) : (s.reach t).pending = s.pending := rfl
@[simp] theorem State.reach_lane (t : Timer) (m : Lane) : (s.reach t).lane m = s.lane m := rfl
@[simp] theorem State.reach_tuner (t : Timer) (j : FLane) : (s.reach t).tuner j = s.tuner j := rfl
@[simp] theorem State.reach_checker (t : Timer) (j : CLane) : (s.reach t).checker j = s.checker j := rfl
@[simp] theorem State.reach_ctxOf (t : Timer) (M : Leg) : (s.reach t).ctx? M = s.ctx? M := rfl
@[simp] theorem State.reach_slot (t : Timer) (j : Fin 8) : (s.reach t).slot j = s.slot j := rfl
@[simp] theorem State.reach_outOfPlan (t : Timer) : (s.reach t).outOfPlan = s.outOfPlan := rfl
@[simp] theorem State.reach_station (t : Timer) : (s.reach t).station = s.station := rfl
@[simp] theorem State.reach_owner (t : Timer) (m : Lane) : (s.reach t).owner m = s.owner m := rfl
@[simp] theorem State.reach_frontLanes (t : Timer) (M : Leg) : (s.reach t).frontLanes M = s.frontLanes M := rfl
@[simp] theorem State.reach_cableLanes (t : Timer) (M : Leg) : (s.reach t).cableLanes M = s.cableLanes M := rfl
@[simp] theorem State.reach_farStation (t : Timer) (M : Leg) : (s.reach t).farStation M = s.farStation M := rfl

/-! ### modLane -/

@[simp] theorem State.modLane_phase (l : Lane) (f : LaneUnit → LaneUnit) : (s.modLane l f).phase = s.phase := rfl
@[simp] theorem State.modLane_now (l : Lane) (f : LaneUnit → LaneUnit) : (s.modLane l f).now = s.now := rfl
@[simp] theorem State.modLane_straps (l : Lane) (f : LaneUnit → LaneUnit) : (s.modLane l f).straps = s.straps := rfl
@[simp] theorem State.modLane_image (l : Lane) (f : LaneUnit → LaneUnit) : (s.modLane l f).image = s.image := rfl
@[simp] theorem State.modLane_imageDefaulted (l : Lane) (f : LaneUnit → LaneUnit) : (s.modLane l f).imageDefaulted = s.imageDefaulted := rfl
@[simp] theorem State.modLane_imageAdjusted (l : Lane) (f : LaneUnit → LaneUnit) : (s.modLane l f).imageAdjusted = s.imageAdjusted := rfl
@[simp] theorem State.modLane_adjust (l : Lane) (f : LaneUnit → LaneUnit) : (s.modLane l f).adjust = s.adjust := rfl
@[simp] theorem State.modLane_slotCount (l : Lane) (f : LaneUnit → LaneUnit) : (s.modLane l f).slotCount = s.slotCount := rfl
@[simp] theorem State.modLane_tuners (l : Lane) (f : LaneUnit → LaneUnit) : (s.modLane l f).tuners = s.tuners := rfl
@[simp] theorem State.modLane_checkers (l : Lane) (f : LaneUnit → LaneUnit) : (s.modLane l f).checkers = s.checkers := rfl
@[simp] theorem State.modLane_splits (l : Lane) (f : LaneUnit → LaneUnit) : (s.modLane l f).splits = s.splits := rfl
@[simp] theorem State.modLane_merges (l : Lane) (f : LaneUnit → LaneUnit) : (s.modLane l f).merges = s.merges := rfl
@[simp] theorem State.modLane_ctxs (l : Lane) (f : LaneUnit → LaneUnit) : (s.modLane l f).ctxs = s.ctxs := rfl
@[simp] theorem State.modLane_interval (l : Lane) (f : LaneUnit → LaneUnit) : (s.modLane l f).interval = s.interval := rfl
@[simp] theorem State.modLane_intervalEnd (l : Lane) (f : LaneUnit → LaneUnit) : (s.modLane l f).intervalEnd = s.intervalEnd := rfl
@[simp] theorem State.modLane_slots (l : Lane) (f : LaneUnit → LaneUnit) : (s.modLane l f).slots = s.slots := rfl
@[simp] theorem State.modLane_nextOrder (l : Lane) (f : LaneUnit → LaneUnit) : (s.modLane l f).nextOrder = s.nextOrder := rfl
@[simp] theorem State.modLane_overflow (l : Lane) (f : LaneUnit → LaneUnit) : (s.modLane l f).overflow = s.overflow := rfl
@[simp] theorem State.modLane_lost (l : Lane) (f : LaneUnit → LaneUnit) : (s.modLane l f).lost = s.lost := rfl
@[simp] theorem State.modLane_line (l : Lane) (f : LaneUnit → LaneUnit) : (s.modLane l f).line = s.line := rfl
@[simp] theorem State.modLane_roster (l : Lane) (f : LaneUnit → LaneUnit) : (s.modLane l f).roster = s.roster := rfl
@[simp] theorem State.modLane_peerLost (l : Lane) (f : LaneUnit → LaneUnit) : (s.modLane l f).peerLost = s.peerLost := rfl
@[simp] theorem State.modLane_coll (l : Lane) (f : LaneUnit → LaneUnit) : (s.modLane l f).coll = s.coll := rfl
@[simp] theorem State.modLane_port (l : Lane) (f : LaneUnit → LaneUnit) : (s.modLane l f).port = s.port := rfl
@[simp] theorem State.modLane_pending (l : Lane) (f : LaneUnit → LaneUnit) : (s.modLane l f).pending = s.pending := rfl
@[simp] theorem State.modLane_tuner (l : Lane) (f : LaneUnit → LaneUnit) (j : FLane) : (s.modLane l f).tuner j = s.tuner j := rfl
@[simp] theorem State.modLane_checker (l : Lane) (f : LaneUnit → LaneUnit) (j : CLane) : (s.modLane l f).checker j = s.checker j := rfl
@[simp] theorem State.modLane_ctxOf (l : Lane) (f : LaneUnit → LaneUnit) (M : Leg) : (s.modLane l f).ctx? M = s.ctx? M := rfl
@[simp] theorem State.modLane_slot (l : Lane) (f : LaneUnit → LaneUnit) (j : Fin 8) : (s.modLane l f).slot j = s.slot j := rfl
@[simp] theorem State.modLane_outOfPlan (l : Lane) (f : LaneUnit → LaneUnit) : (s.modLane l f).outOfPlan = s.outOfPlan := rfl
@[simp] theorem State.modLane_station (l : Lane) (f : LaneUnit → LaneUnit) : (s.modLane l f).station = s.station := rfl
@[simp] theorem State.modLane_owner (l : Lane) (f : LaneUnit → LaneUnit) (m : Lane) : (s.modLane l f).owner m = s.owner m := rfl
@[simp] theorem State.modLane_frontLanes (l : Lane) (f : LaneUnit → LaneUnit) (M : Leg) : (s.modLane l f).frontLanes M = s.frontLanes M := rfl
@[simp] theorem State.modLane_cableLanes (l : Lane) (f : LaneUnit → LaneUnit) (M : Leg) : (s.modLane l f).cableLanes M = s.cableLanes M := rfl
@[simp] theorem State.modLane_farStation (l : Lane) (f : LaneUnit → LaneUnit) (M : Leg) : (s.modLane l f).farStation M = s.farStation M := rfl

/-! ### modTuner -/

@[simp] theorem State.modTuner_phase (k : FLane) (f : Tuner → Tuner) : (s.modTuner k f).phase = s.phase := rfl
@[simp] theorem State.modTuner_now (k : FLane) (f : Tuner → Tuner) : (s.modTuner k f).now = s.now := rfl
@[simp] theorem State.modTuner_straps (k : FLane) (f : Tuner → Tuner) : (s.modTuner k f).straps = s.straps := rfl
@[simp] theorem State.modTuner_image (k : FLane) (f : Tuner → Tuner) : (s.modTuner k f).image = s.image := rfl
@[simp] theorem State.modTuner_imageDefaulted (k : FLane) (f : Tuner → Tuner) : (s.modTuner k f).imageDefaulted = s.imageDefaulted := rfl
@[simp] theorem State.modTuner_imageAdjusted (k : FLane) (f : Tuner → Tuner) : (s.modTuner k f).imageAdjusted = s.imageAdjusted := rfl
@[simp] theorem State.modTuner_adjust (k : FLane) (f : Tuner → Tuner) : (s.modTuner k f).adjust = s.adjust := rfl
@[simp] theorem State.modTuner_slotCount (k : FLane) (f : Tuner → Tuner) : (s.modTuner k f).slotCount = s.slotCount := rfl
@[simp] theorem State.modTuner_lanes (k : FLane) (f : Tuner → Tuner) : (s.modTuner k f).lanes = s.lanes := rfl
@[simp] theorem State.modTuner_checkers (k : FLane) (f : Tuner → Tuner) : (s.modTuner k f).checkers = s.checkers := rfl
@[simp] theorem State.modTuner_splits (k : FLane) (f : Tuner → Tuner) : (s.modTuner k f).splits = s.splits := rfl
@[simp] theorem State.modTuner_merges (k : FLane) (f : Tuner → Tuner) : (s.modTuner k f).merges = s.merges := rfl
@[simp] theorem State.modTuner_ctxs (k : FLane) (f : Tuner → Tuner) : (s.modTuner k f).ctxs = s.ctxs := rfl
@[simp] theorem State.modTuner_interval (k : FLane) (f : Tuner → Tuner) : (s.modTuner k f).interval = s.interval := rfl
@[simp] theorem State.modTuner_intervalEnd (k : FLane) (f : Tuner → Tuner) : (s.modTuner k f).intervalEnd = s.intervalEnd := rfl
@[simp] theorem State.modTuner_slots (k : FLane) (f : Tuner → Tuner) : (s.modTuner k f).slots = s.slots := rfl
@[simp] theorem State.modTuner_nextOrder (k : FLane) (f : Tuner → Tuner) : (s.modTuner k f).nextOrder = s.nextOrder := rfl
@[simp] theorem State.modTuner_overflow (k : FLane) (f : Tuner → Tuner) : (s.modTuner k f).overflow = s.overflow := rfl
@[simp] theorem State.modTuner_lost (k : FLane) (f : Tuner → Tuner) : (s.modTuner k f).lost = s.lost := rfl
@[simp] theorem State.modTuner_line (k : FLane) (f : Tuner → Tuner) : (s.modTuner k f).line = s.line := rfl
@[simp] theorem State.modTuner_roster (k : FLane) (f : Tuner → Tuner) : (s.modTuner k f).roster = s.roster := rfl
@[simp] theorem State.modTuner_peerLost (k : FLane) (f : Tuner → Tuner) : (s.modTuner k f).peerLost = s.peerLost := rfl
@[simp] theorem State.modTuner_coll (k : FLane) (f : Tuner → Tuner) : (s.modTuner k f).coll = s.coll := rfl
@[simp] theorem State.modTuner_port (k : FLane) (f : Tuner → Tuner) : (s.modTuner k f).port = s.port := rfl
@[simp] theorem State.modTuner_pending (k : FLane) (f : Tuner → Tuner) : (s.modTuner k f).pending = s.pending := rfl
@[simp] theorem State.modTuner_lane (k : FLane) (f : Tuner → Tuner) (m : Lane) : (s.modTuner k f).lane m = s.lane m := rfl
@[simp] theorem State.modTuner_checker (k : FLane) (f : Tuner → Tuner) (j : CLane) : (s.modTuner k f).checker j = s.checker j := rfl
@[simp] theorem State.modTuner_ctxOf (k : FLane) (f : Tuner → Tuner) (M : Leg) : (s.modTuner k f).ctx? M = s.ctx? M := rfl
@[simp] theorem State.modTuner_slot (k : FLane) (f : Tuner → Tuner) (j : Fin 8) : (s.modTuner k f).slot j = s.slot j := rfl
@[simp] theorem State.modTuner_outOfPlan (k : FLane) (f : Tuner → Tuner) : (s.modTuner k f).outOfPlan = s.outOfPlan := rfl
@[simp] theorem State.modTuner_station (k : FLane) (f : Tuner → Tuner) : (s.modTuner k f).station = s.station := rfl
@[simp] theorem State.modTuner_owner (k : FLane) (f : Tuner → Tuner) (m : Lane) : (s.modTuner k f).owner m = s.owner m := rfl
@[simp] theorem State.modTuner_frontLanes (k : FLane) (f : Tuner → Tuner) (M : Leg) : (s.modTuner k f).frontLanes M = s.frontLanes M := rfl
@[simp] theorem State.modTuner_cableLanes (k : FLane) (f : Tuner → Tuner) (M : Leg) : (s.modTuner k f).cableLanes M = s.cableLanes M := rfl
@[simp] theorem State.modTuner_farStation (k : FLane) (f : Tuner → Tuner) (M : Leg) : (s.modTuner k f).farStation M = s.farStation M := rfl

/-! ### modChecker -/

@[simp] theorem State.modChecker_phase (k : CLane) (f : Checker → Checker) : (s.modChecker k f).phase = s.phase := rfl
@[simp] theorem State.modChecker_now (k : CLane) (f : Checker → Checker) : (s.modChecker k f).now = s.now := rfl
@[simp] theorem State.modChecker_straps (k : CLane) (f : Checker → Checker) : (s.modChecker k f).straps = s.straps := rfl
@[simp] theorem State.modChecker_image (k : CLane) (f : Checker → Checker) : (s.modChecker k f).image = s.image := rfl
@[simp] theorem State.modChecker_imageDefaulted (k : CLane) (f : Checker → Checker) : (s.modChecker k f).imageDefaulted = s.imageDefaulted := rfl
@[simp] theorem State.modChecker_imageAdjusted (k : CLane) (f : Checker → Checker) : (s.modChecker k f).imageAdjusted = s.imageAdjusted := rfl
@[simp] theorem State.modChecker_adjust (k : CLane) (f : Checker → Checker) : (s.modChecker k f).adjust = s.adjust := rfl
@[simp] theorem State.modChecker_slotCount (k : CLane) (f : Checker → Checker) : (s.modChecker k f).slotCount = s.slotCount := rfl
@[simp] theorem State.modChecker_lanes (k : CLane) (f : Checker → Checker) : (s.modChecker k f).lanes = s.lanes := rfl
@[simp] theorem State.modChecker_tuners (k : CLane) (f : Checker → Checker) : (s.modChecker k f).tuners = s.tuners := rfl
@[simp] theorem State.modChecker_splits (k : CLane) (f : Checker → Checker) : (s.modChecker k f).splits = s.splits := rfl
@[simp] theorem State.modChecker_merges (k : CLane) (f : Checker → Checker) : (s.modChecker k f).merges = s.merges := rfl
@[simp] theorem State.modChecker_ctxs (k : CLane) (f : Checker → Checker) : (s.modChecker k f).ctxs = s.ctxs := rfl
@[simp] theorem State.modChecker_interval (k : CLane) (f : Checker → Checker) : (s.modChecker k f).interval = s.interval := rfl
@[simp] theorem State.modChecker_intervalEnd (k : CLane) (f : Checker → Checker) : (s.modChecker k f).intervalEnd = s.intervalEnd := rfl
@[simp] theorem State.modChecker_slots (k : CLane) (f : Checker → Checker) : (s.modChecker k f).slots = s.slots := rfl
@[simp] theorem State.modChecker_nextOrder (k : CLane) (f : Checker → Checker) : (s.modChecker k f).nextOrder = s.nextOrder := rfl
@[simp] theorem State.modChecker_overflow (k : CLane) (f : Checker → Checker) : (s.modChecker k f).overflow = s.overflow := rfl
@[simp] theorem State.modChecker_lost (k : CLane) (f : Checker → Checker) : (s.modChecker k f).lost = s.lost := rfl
@[simp] theorem State.modChecker_line (k : CLane) (f : Checker → Checker) : (s.modChecker k f).line = s.line := rfl
@[simp] theorem State.modChecker_roster (k : CLane) (f : Checker → Checker) : (s.modChecker k f).roster = s.roster := rfl
@[simp] theorem State.modChecker_peerLost (k : CLane) (f : Checker → Checker) : (s.modChecker k f).peerLost = s.peerLost := rfl
@[simp] theorem State.modChecker_coll (k : CLane) (f : Checker → Checker) : (s.modChecker k f).coll = s.coll := rfl
@[simp] theorem State.modChecker_port (k : CLane) (f : Checker → Checker) : (s.modChecker k f).port = s.port := rfl
@[simp] theorem State.modChecker_pending (k : CLane) (f : Checker → Checker) : (s.modChecker k f).pending = s.pending := rfl
@[simp] theorem State.modChecker_lane (k : CLane) (f : Checker → Checker) (m : Lane) : (s.modChecker k f).lane m = s.lane m := rfl
@[simp] theorem State.modChecker_tuner (k : CLane) (f : Checker → Checker) (j : FLane) : (s.modChecker k f).tuner j = s.tuner j := rfl
@[simp] theorem State.modChecker_ctxOf (k : CLane) (f : Checker → Checker) (M : Leg) : (s.modChecker k f).ctx? M = s.ctx? M := rfl
@[simp] theorem State.modChecker_slot (k : CLane) (f : Checker → Checker) (j : Fin 8) : (s.modChecker k f).slot j = s.slot j := rfl
@[simp] theorem State.modChecker_outOfPlan (k : CLane) (f : Checker → Checker) : (s.modChecker k f).outOfPlan = s.outOfPlan := rfl
@[simp] theorem State.modChecker_station (k : CLane) (f : Checker → Checker) : (s.modChecker k f).station = s.station := rfl
@[simp] theorem State.modChecker_owner (k : CLane) (f : Checker → Checker) (m : Lane) : (s.modChecker k f).owner m = s.owner m := rfl
@[simp] theorem State.modChecker_frontLanes (k : CLane) (f : Checker → Checker) (M : Leg) : (s.modChecker k f).frontLanes M = s.frontLanes M := rfl
@[simp] theorem State.modChecker_cableLanes (k : CLane) (f : Checker → Checker) (M : Leg) : (s.modChecker k f).cableLanes M = s.cableLanes M := rfl
@[simp] theorem State.modChecker_farStation (k : CLane) (f : Checker → Checker) (M : Leg) : (s.modChecker k f).farStation M = s.farStation M := rfl

/-! ### modSplit -/

@[simp] theorem State.modSplit_phase (k : CLane) (f : Split → Split) : (s.modSplit k f).phase = s.phase := rfl
@[simp] theorem State.modSplit_now (k : CLane) (f : Split → Split) : (s.modSplit k f).now = s.now := rfl
@[simp] theorem State.modSplit_straps (k : CLane) (f : Split → Split) : (s.modSplit k f).straps = s.straps := rfl
@[simp] theorem State.modSplit_image (k : CLane) (f : Split → Split) : (s.modSplit k f).image = s.image := rfl
@[simp] theorem State.modSplit_imageDefaulted (k : CLane) (f : Split → Split) : (s.modSplit k f).imageDefaulted = s.imageDefaulted := rfl
@[simp] theorem State.modSplit_imageAdjusted (k : CLane) (f : Split → Split) : (s.modSplit k f).imageAdjusted = s.imageAdjusted := rfl
@[simp] theorem State.modSplit_adjust (k : CLane) (f : Split → Split) : (s.modSplit k f).adjust = s.adjust := rfl
@[simp] theorem State.modSplit_slotCount (k : CLane) (f : Split → Split) : (s.modSplit k f).slotCount = s.slotCount := rfl
@[simp] theorem State.modSplit_lanes (k : CLane) (f : Split → Split) : (s.modSplit k f).lanes = s.lanes := rfl
@[simp] theorem State.modSplit_tuners (k : CLane) (f : Split → Split) : (s.modSplit k f).tuners = s.tuners := rfl
@[simp] theorem State.modSplit_checkers (k : CLane) (f : Split → Split) : (s.modSplit k f).checkers = s.checkers := rfl
@[simp] theorem State.modSplit_merges (k : CLane) (f : Split → Split) : (s.modSplit k f).merges = s.merges := rfl
@[simp] theorem State.modSplit_ctxs (k : CLane) (f : Split → Split) : (s.modSplit k f).ctxs = s.ctxs := rfl
@[simp] theorem State.modSplit_interval (k : CLane) (f : Split → Split) : (s.modSplit k f).interval = s.interval := rfl
@[simp] theorem State.modSplit_intervalEnd (k : CLane) (f : Split → Split) : (s.modSplit k f).intervalEnd = s.intervalEnd := rfl
@[simp] theorem State.modSplit_slots (k : CLane) (f : Split → Split) : (s.modSplit k f).slots = s.slots := rfl
@[simp] theorem State.modSplit_nextOrder (k : CLane) (f : Split → Split) : (s.modSplit k f).nextOrder = s.nextOrder := rfl
@[simp] theorem State.modSplit_overflow (k : CLane) (f : Split → Split) : (s.modSplit k f).overflow = s.overflow := rfl
@[simp] theorem State.modSplit_lost (k : CLane) (f : Split → Split) : (s.modSplit k f).lost = s.lost := rfl
@[simp] theorem State.modSplit_line (k : CLane) (f : Split → Split) : (s.modSplit k f).line = s.line := rfl
@[simp] theorem State.modSplit_roster (k : CLane) (f : Split → Split) : (s.modSplit k f).roster = s.roster := rfl
@[simp] theorem State.modSplit_peerLost (k : CLane) (f : Split → Split) : (s.modSplit k f).peerLost = s.peerLost := rfl
@[simp] theorem State.modSplit_coll (k : CLane) (f : Split → Split) : (s.modSplit k f).coll = s.coll := rfl
@[simp] theorem State.modSplit_port (k : CLane) (f : Split → Split) : (s.modSplit k f).port = s.port := rfl
@[simp] theorem State.modSplit_pending (k : CLane) (f : Split → Split) : (s.modSplit k f).pending = s.pending := rfl
@[simp] theorem State.modSplit_lane (k : CLane) (f : Split → Split) (m : Lane) : (s.modSplit k f).lane m = s.lane m := rfl
@[simp] theorem State.modSplit_tuner (k : CLane) (f : Split → Split) (j : FLane) : (s.modSplit k f).tuner j = s.tuner j := rfl
@[simp] theorem State.modSplit_checker (k : CLane) (f : Split → Split) (j : CLane) : (s.modSplit k f).checker j = s.checker j := rfl
@[simp] theorem State.modSplit_ctxOf (k : CLane) (f : Split → Split) (M : Leg) : (s.modSplit k f).ctx? M = s.ctx? M := rfl
@[simp] theorem State.modSplit_slot (k : CLane) (f : Split → Split) (j : Fin 8) : (s.modSplit k f).slot j = s.slot j := rfl
@[simp] theorem State.modSplit_outOfPlan (k : CLane) (f : Split → Split) : (s.modSplit k f).outOfPlan = s.outOfPlan := rfl
@[simp] theorem State.modSplit_station (k : CLane) (f : Split → Split) : (s.modSplit k f).station = s.station := rfl
@[simp] theorem State.modSplit_owner (k : CLane) (f : Split → Split) (m : Lane) : (s.modSplit k f).owner m = s.owner m := rfl
@[simp] theorem State.modSplit_frontLanes (k : CLane) (f : Split → Split) (M : Leg) : (s.modSplit k f).frontLanes M = s.frontLanes M := rfl
@[simp] theorem State.modSplit_cableLanes (k : CLane) (f : Split → Split) (M : Leg) : (s.modSplit k f).cableLanes M = s.cableLanes M := rfl
@[simp] theorem State.modSplit_farStation (k : CLane) (f : Split → Split) (M : Leg) : (s.modSplit k f).farStation M = s.farStation M := rfl

/-! ### modMerge -/

@[simp] theorem State.modMerge_phase (k : CLane) (f : Merge → Merge) : (s.modMerge k f).phase = s.phase := rfl
@[simp] theorem State.modMerge_now (k : CLane) (f : Merge → Merge) : (s.modMerge k f).now = s.now := rfl
@[simp] theorem State.modMerge_straps (k : CLane) (f : Merge → Merge) : (s.modMerge k f).straps = s.straps := rfl
@[simp] theorem State.modMerge_image (k : CLane) (f : Merge → Merge) : (s.modMerge k f).image = s.image := rfl
@[simp] theorem State.modMerge_imageDefaulted (k : CLane) (f : Merge → Merge) : (s.modMerge k f).imageDefaulted = s.imageDefaulted := rfl
@[simp] theorem State.modMerge_imageAdjusted (k : CLane) (f : Merge → Merge) : (s.modMerge k f).imageAdjusted = s.imageAdjusted := rfl
@[simp] theorem State.modMerge_adjust (k : CLane) (f : Merge → Merge) : (s.modMerge k f).adjust = s.adjust := rfl
@[simp] theorem State.modMerge_slotCount (k : CLane) (f : Merge → Merge) : (s.modMerge k f).slotCount = s.slotCount := rfl
@[simp] theorem State.modMerge_lanes (k : CLane) (f : Merge → Merge) : (s.modMerge k f).lanes = s.lanes := rfl
@[simp] theorem State.modMerge_tuners (k : CLane) (f : Merge → Merge) : (s.modMerge k f).tuners = s.tuners := rfl
@[simp] theorem State.modMerge_checkers (k : CLane) (f : Merge → Merge) : (s.modMerge k f).checkers = s.checkers := rfl
@[simp] theorem State.modMerge_splits (k : CLane) (f : Merge → Merge) : (s.modMerge k f).splits = s.splits := rfl
@[simp] theorem State.modMerge_ctxs (k : CLane) (f : Merge → Merge) : (s.modMerge k f).ctxs = s.ctxs := rfl
@[simp] theorem State.modMerge_interval (k : CLane) (f : Merge → Merge) : (s.modMerge k f).interval = s.interval := rfl
@[simp] theorem State.modMerge_intervalEnd (k : CLane) (f : Merge → Merge) : (s.modMerge k f).intervalEnd = s.intervalEnd := rfl
@[simp] theorem State.modMerge_slots (k : CLane) (f : Merge → Merge) : (s.modMerge k f).slots = s.slots := rfl
@[simp] theorem State.modMerge_nextOrder (k : CLane) (f : Merge → Merge) : (s.modMerge k f).nextOrder = s.nextOrder := rfl
@[simp] theorem State.modMerge_overflow (k : CLane) (f : Merge → Merge) : (s.modMerge k f).overflow = s.overflow := rfl
@[simp] theorem State.modMerge_lost (k : CLane) (f : Merge → Merge) : (s.modMerge k f).lost = s.lost := rfl
@[simp] theorem State.modMerge_line (k : CLane) (f : Merge → Merge) : (s.modMerge k f).line = s.line := rfl
@[simp] theorem State.modMerge_roster (k : CLane) (f : Merge → Merge) : (s.modMerge k f).roster = s.roster := rfl
@[simp] theorem State.modMerge_peerLost (k : CLane) (f : Merge → Merge) : (s.modMerge k f).peerLost = s.peerLost := rfl
@[simp] theorem State.modMerge_coll (k : CLane) (f : Merge → Merge) : (s.modMerge k f).coll = s.coll := rfl
@[simp] theorem State.modMerge_port (k : CLane) (f : Merge → Merge) : (s.modMerge k f).port = s.port := rfl
@[simp] theorem State.modMerge_pending (k : CLane) (f : Merge → Merge) : (s.modMerge k f).pending = s.pending := rfl
@[simp] theorem State.modMerge_lane (k : CLane) (f : Merge → Merge) (m : Lane) : (s.modMerge k f).lane m = s.lane m := rfl
@[simp] theorem State.modMerge_tuner (k : CLane) (f : Merge → Merge) (j : FLane) : (s.modMerge k f).tuner j = s.tuner j := rfl
@[simp] theorem State.modMerge_checker (k : CLane) (f : Merge → Merge) (j : CLane) : (s.modMerge k f).checker j = s.checker j := rfl
@[simp] theorem State.modMerge_ctxOf (k : CLane) (f : Merge → Merge) (M : Leg) : (s.modMerge k f).ctx? M = s.ctx? M := rfl
@[simp] theorem State.modMerge_slot (k : CLane) (f : Merge → Merge) (j : Fin 8) : (s.modMerge k f).slot j = s.slot j := rfl
@[simp] theorem State.modMerge_outOfPlan (k : CLane) (f : Merge → Merge) : (s.modMerge k f).outOfPlan = s.outOfPlan := rfl
@[simp] theorem State.modMerge_station (k : CLane) (f : Merge → Merge) : (s.modMerge k f).station = s.station := rfl
@[simp] theorem State.modMerge_owner (k : CLane) (f : Merge → Merge) (m : Lane) : (s.modMerge k f).owner m = s.owner m := rfl
@[simp] theorem State.modMerge_frontLanes (k : CLane) (f : Merge → Merge) (M : Leg) : (s.modMerge k f).frontLanes M = s.frontLanes M := rfl
@[simp] theorem State.modMerge_cableLanes (k : CLane) (f : Merge → Merge) (M : Leg) : (s.modMerge k f).cableLanes M = s.cableLanes M := rfl
@[simp] theorem State.modMerge_farStation (k : CLane) (f : Merge → Merge) (M : Leg) : (s.modMerge k f).farStation M = s.farStation M := rfl

/-! ### setSlot -/

@[simp] theorem State.setSlot_phase (i : Fin 8) (c : Option Capture) : (s.setSlot i c).phase = s.phase := rfl
@[simp] theorem State.setSlot_now (i : Fin 8) (c : Option Capture) : (s.setSlot i c).now = s.now := rfl
@[simp] theorem State.setSlot_straps (i : Fin 8) (c : Option Capture) : (s.setSlot i c).straps = s.straps := rfl
@[simp] theorem State.setSlot_image (i : Fin 8) (c : Option Capture) : (s.setSlot i c).image = s.image := rfl
@[simp] theorem State.setSlot_imageDefaulted (i : Fin 8) (c : Option Capture) : (s.setSlot i c).imageDefaulted = s.imageDefaulted := rfl
@[simp] theorem State.setSlot_imageAdjusted (i : Fin 8) (c : Option Capture) : (s.setSlot i c).imageAdjusted = s.imageAdjusted := rfl
@[simp] theorem State.setSlot_adjust (i : Fin 8) (c : Option Capture) : (s.setSlot i c).adjust = s.adjust := rfl
@[simp] theorem State.setSlot_slotCount (i : Fin 8) (c : Option Capture) : (s.setSlot i c).slotCount = s.slotCount := rfl
@[simp] theorem State.setSlot_lanes (i : Fin 8) (c : Option Capture) : (s.setSlot i c).lanes = s.lanes := rfl
@[simp] theorem State.setSlot_tuners (i : Fin 8) (c : Option Capture) : (s.setSlot i c).tuners = s.tuners := rfl
@[simp] theorem State.setSlot_checkers (i : Fin 8) (c : Option Capture) : (s.setSlot i c).checkers = s.checkers := rfl
@[simp] theorem State.setSlot_splits (i : Fin 8) (c : Option Capture) : (s.setSlot i c).splits = s.splits := rfl
@[simp] theorem State.setSlot_merges (i : Fin 8) (c : Option Capture) : (s.setSlot i c).merges = s.merges := rfl
@[simp] theorem State.setSlot_ctxs (i : Fin 8) (c : Option Capture) : (s.setSlot i c).ctxs = s.ctxs := rfl
@[simp] theorem State.setSlot_interval (i : Fin 8) (c : Option Capture) : (s.setSlot i c).interval = s.interval := rfl
@[simp] theorem State.setSlot_intervalEnd (i : Fin 8) (c : Option Capture) : (s.setSlot i c).intervalEnd = s.intervalEnd := rfl
@[simp] theorem State.setSlot_nextOrder (i : Fin 8) (c : Option Capture) : (s.setSlot i c).nextOrder = s.nextOrder := rfl
@[simp] theorem State.setSlot_overflow (i : Fin 8) (c : Option Capture) : (s.setSlot i c).overflow = s.overflow := rfl
@[simp] theorem State.setSlot_lost (i : Fin 8) (c : Option Capture) : (s.setSlot i c).lost = s.lost := rfl
@[simp] theorem State.setSlot_line (i : Fin 8) (c : Option Capture) : (s.setSlot i c).line = s.line := rfl
@[simp] theorem State.setSlot_roster (i : Fin 8) (c : Option Capture) : (s.setSlot i c).roster = s.roster := rfl
@[simp] theorem State.setSlot_peerLost (i : Fin 8) (c : Option Capture) : (s.setSlot i c).peerLost = s.peerLost := rfl
@[simp] theorem State.setSlot_coll (i : Fin 8) (c : Option Capture) : (s.setSlot i c).coll = s.coll := rfl
@[simp] theorem State.setSlot_port (i : Fin 8) (c : Option Capture) : (s.setSlot i c).port = s.port := rfl
@[simp] theorem State.setSlot_pending (i : Fin 8) (c : Option Capture) : (s.setSlot i c).pending = s.pending := rfl
@[simp] theorem State.setSlot_lane (i : Fin 8) (c : Option Capture) (m : Lane) : (s.setSlot i c).lane m = s.lane m := rfl
@[simp] theorem State.setSlot_tuner (i : Fin 8) (c : Option Capture) (j : FLane) : (s.setSlot i c).tuner j = s.tuner j := rfl
@[simp] theorem State.setSlot_checker (i : Fin 8) (c : Option Capture) (j : CLane) : (s.setSlot i c).checker j = s.checker j := rfl
@[simp] theorem State.setSlot_ctxOf (i : Fin 8) (c : Option Capture) (M : Leg) : (s.setSlot i c).ctx? M = s.ctx? M := rfl
@[simp] theorem State.setSlot_outOfPlan (i : Fin 8) (c : Option Capture) : (s.setSlot i c).outOfPlan = s.outOfPlan := rfl
@[simp] theorem State.setSlot_station (i : Fin 8) (c : Option Capture) : (s.setSlot i c).station = s.station := rfl
@[simp] theorem State.setSlot_owner (i : Fin 8) (c : Option Capture) (m : Lane) : (s.setSlot i c).owner m = s.owner m := rfl
@[simp] theorem State.setSlot_frontLanes (i : Fin 8) (c : Option Capture) (M : Leg) : (s.setSlot i c).frontLanes M = s.frontLanes M := rfl
@[simp] theorem State.setSlot_cableLanes (i : Fin 8) (c : Option Capture) (M : Leg) : (s.setSlot i c).cableLanes M = s.cableLanes M := rfl
@[simp] theorem State.setSlot_farStation (i : Fin 8) (c : Option Capture) (M : Leg) : (s.setSlot i c).farStation M = s.farStation M := rfl

/-! ### modLine -/

@[simp] theorem State.modLine_phase (f : Line → Line) : (s.modLine f).phase = s.phase := rfl
@[simp] theorem State.modLine_now (f : Line → Line) : (s.modLine f).now = s.now := rfl
@[simp] theorem State.modLine_straps (f : Line → Line) : (s.modLine f).straps = s.straps := rfl
@[simp] theorem State.modLine_image (f : Line → Line) : (s.modLine f).image = s.image := rfl
@[simp] theorem State.modLine_imageDefaulted (f : Line → Line) : (s.modLine f).imageDefaulted = s.imageDefaulted := rfl
@[simp] theorem State.modLine_imageAdjusted (f : Line → Line) : (s.modLine f).imageAdjusted = s.imageAdjusted := rfl
@[simp] theorem State.modLine_adjust (f : Line → Line) : (s.modLine f).adjust = s.adjust := rfl
@[simp] theorem State.modLine_slotCount (f : Line → Line) : (s.modLine f).slotCount = s.slotCount := rfl
@[simp] theorem State.modLine_lanes (f : Line → Line) : (s.modLine f).lanes = s.lanes := rfl
@[simp] theorem State.modLine_tuners (f : Line → Line) : (s.modLine f).tuners = s.tuners := rfl
@[simp] theorem State.modLine_checkers (f : Line → Line) : (s.modLine f).checkers = s.checkers := rfl
@[simp] theorem State.modLine_splits (f : Line → Line) : (s.modLine f).splits = s.splits := rfl
@[simp] theorem State.modLine_merges (f : Line → Line) : (s.modLine f).merges = s.merges := rfl
@[simp] theorem State.modLine_ctxs (f : Line → Line) : (s.modLine f).ctxs = s.ctxs := rfl
@[simp] theorem State.modLine_interval (f : Line → Line) : (s.modLine f).interval = s.interval := rfl
@[simp] theorem State.modLine_intervalEnd (f : Line → Line) : (s.modLine f).intervalEnd = s.intervalEnd := rfl
@[simp] theorem State.modLine_slots (f : Line → Line) : (s.modLine f).slots = s.slots := rfl
@[simp] theorem State.modLine_nextOrder (f : Line → Line) : (s.modLine f).nextOrder = s.nextOrder := rfl
@[simp] theorem State.modLine_overflow (f : Line → Line) : (s.modLine f).overflow = s.overflow := rfl
@[simp] theorem State.modLine_lost (f : Line → Line) : (s.modLine f).lost = s.lost := rfl
@[simp] theorem State.modLine_roster (f : Line → Line) : (s.modLine f).roster = s.roster := rfl
@[simp] theorem State.modLine_peerLost (f : Line → Line) : (s.modLine f).peerLost = s.peerLost := rfl
@[simp] theorem State.modLine_coll (f : Line → Line) : (s.modLine f).coll = s.coll := rfl
@[simp] theorem State.modLine_port (f : Line → Line) : (s.modLine f).port = s.port := rfl
@[simp] theorem State.modLine_pending (f : Line → Line) : (s.modLine f).pending = s.pending := rfl
@[simp] theorem State.modLine_lane (f : Line → Line) (m : Lane) : (s.modLine f).lane m = s.lane m := rfl
@[simp] theorem State.modLine_tuner (f : Line → Line) (j : FLane) : (s.modLine f).tuner j = s.tuner j := rfl
@[simp] theorem State.modLine_checker (f : Line → Line) (j : CLane) : (s.modLine f).checker j = s.checker j := rfl
@[simp] theorem State.modLine_ctxOf (f : Line → Line) (M : Leg) : (s.modLine f).ctx? M = s.ctx? M := rfl
@[simp] theorem State.modLine_slot (f : Line → Line) (j : Fin 8) : (s.modLine f).slot j = s.slot j := rfl
@[simp] theorem State.modLine_outOfPlan (f : Line → Line) : (s.modLine f).outOfPlan = s.outOfPlan := rfl
@[simp] theorem State.modLine_station (f : Line → Line) : (s.modLine f).station = s.station := rfl
@[simp] theorem State.modLine_owner (f : Line → Line) (m : Lane) : (s.modLine f).owner m = s.owner m := rfl
@[simp] theorem State.modLine_frontLanes (f : Line → Line) (M : Leg) : (s.modLine f).frontLanes M = s.frontLanes M := rfl
@[simp] theorem State.modLine_cableLanes (f : Line → Line) (M : Leg) : (s.modLine f).cableLanes M = s.cableLanes M := rfl
@[simp] theorem State.modLine_farStation (f : Line → Line) (M : Leg) : (s.modLine f).farStation M = s.farStation M := rfl

/-! ### modPort -/

@[simp] theorem State.modPort_phase (f : Port → Port) : (s.modPort f).phase = s.phase := rfl
@[simp] theorem State.modPort_now (f : Port → Port) : (s.modPort f).now = s.now := rfl
@[simp] theorem State.modPort_straps (f : Port → Port) : (s.modPort f).straps = s.straps := rfl
@[simp] theorem State.modPort_image (f : Port → Port) : (s.modPort f).image = s.image := rfl
@[simp] theorem State.modPort_imageDefaulted (f : Port → Port) : (s.modPort f).imageDefaulted = s.imageDefaulted := rfl
@[simp] theorem State.modPort_imageAdjusted (f : Port → Port) : (s.modPort f).imageAdjusted = s.imageAdjusted := rfl
@[simp] theorem State.modPort_adjust (f : Port → Port) : (s.modPort f).adjust = s.adjust := rfl
@[simp] theorem State.modPort_slotCount (f : Port → Port) : (s.modPort f).slotCount = s.slotCount := rfl
@[simp] theorem State.modPort_lanes (f : Port → Port) : (s.modPort f).lanes = s.lanes := rfl
@[simp] theorem State.modPort_tuners (f : Port → Port) : (s.modPort f).tuners = s.tuners := rfl
@[simp] theorem State.modPort_checkers (f : Port → Port) : (s.modPort f).checkers = s.checkers := rfl
@[simp] theorem State.modPort_splits (f : Port → Port) : (s.modPort f).splits = s.splits := rfl
@[simp] theorem State.modPort_merges (f : Port → Port) : (s.modPort f).merges = s.merges := rfl
@[simp] theorem State.modPort_ctxs (f : Port → Port) : (s.modPort f).ctxs = s.ctxs := rfl
@[simp] theorem State.modPort_interval (f : Port → Port) : (s.modPort f).interval = s.interval := rfl
@[simp] theorem State.modPort_intervalEnd (f : Port → Port) : (s.modPort f).intervalEnd = s.intervalEnd := rfl
@[simp] theorem State.modPort_slots (f : Port → Port) : (s.modPort f).slots = s.slots := rfl
@[simp] theorem State.modPort_nextOrder (f : Port → Port) : (s.modPort f).nextOrder = s.nextOrder := rfl
@[simp] theorem State.modPort_overflow (f : Port → Port) : (s.modPort f).overflow = s.overflow := rfl
@[simp] theorem State.modPort_lost (f : Port → Port) : (s.modPort f).lost = s.lost := rfl
@[simp] theorem State.modPort_line (f : Port → Port) : (s.modPort f).line = s.line := rfl
@[simp] theorem State.modPort_roster (f : Port → Port) : (s.modPort f).roster = s.roster := rfl
@[simp] theorem State.modPort_peerLost (f : Port → Port) : (s.modPort f).peerLost = s.peerLost := rfl
@[simp] theorem State.modPort_coll (f : Port → Port) : (s.modPort f).coll = s.coll := rfl
@[simp] theorem State.modPort_pending (f : Port → Port) : (s.modPort f).pending = s.pending := rfl
@[simp] theorem State.modPort_lane (f : Port → Port) (m : Lane) : (s.modPort f).lane m = s.lane m := rfl
@[simp] theorem State.modPort_tuner (f : Port → Port) (j : FLane) : (s.modPort f).tuner j = s.tuner j := rfl
@[simp] theorem State.modPort_checker (f : Port → Port) (j : CLane) : (s.modPort f).checker j = s.checker j := rfl
@[simp] theorem State.modPort_ctxOf (f : Port → Port) (M : Leg) : (s.modPort f).ctx? M = s.ctx? M := rfl
@[simp] theorem State.modPort_slot (f : Port → Port) (j : Fin 8) : (s.modPort f).slot j = s.slot j := rfl
@[simp] theorem State.modPort_outOfPlan (f : Port → Port) : (s.modPort f).outOfPlan = s.outOfPlan := rfl
@[simp] theorem State.modPort_station (f : Port → Port) : (s.modPort f).station = s.station := rfl
@[simp] theorem State.modPort_owner (f : Port → Port) (m : Lane) : (s.modPort f).owner m = s.owner m := rfl
@[simp] theorem State.modPort_frontLanes (f : Port → Port) (M : Leg) : (s.modPort f).frontLanes M = s.frontLanes M := rfl
@[simp] theorem State.modPort_cableLanes (f : Port → Port) (M : Leg) : (s.modPort f).cableLanes M = s.cableLanes M := rfl
@[simp] theorem State.modPort_farStation (f : Port → Port) (M : Leg) : (s.modPort f).farStation M = s.farStation M := rfl

/-! ### modColl -/

@[simp] theorem State.modColl_phase (f : Collection → Collection) : (s.modColl f).phase = s.phase := rfl
@[simp] theorem State.modColl_now (f : Collection → Collection) : (s.modColl f).now = s.now := rfl
@[simp] theorem State.modColl_straps (f : Collection → Collection) : (s.modColl f).straps = s.straps := rfl
@[simp] theorem State.modColl_image (f : Collection → Collection) : (s.modColl f).image = s.image := rfl
@[simp] theorem State.modColl_imageDefaulted (f : Collection → Collection) : (s.modColl f).imageDefaulted = s.imageDefaulted := rfl
@[simp] theorem State.modColl_imageAdjusted (f : Collection → Collection) : (s.modColl f).imageAdjusted = s.imageAdjusted := rfl
@[simp] theorem State.modColl_adjust (f : Collection → Collection) : (s.modColl f).adjust = s.adjust := rfl
@[simp] theorem State.modColl_slotCount (f : Collection → Collection) : (s.modColl f).slotCount = s.slotCount := rfl
@[simp] theorem State.modColl_lanes (f : Collection → Collection) : (s.modColl f).lanes = s.lanes := rfl
@[simp] theorem State.modColl_tuners (f : Collection → Collection) : (s.modColl f).tuners = s.tuners := rfl
@[simp] theorem State.modColl_checkers (f : Collection → Collection) : (s.modColl f).checkers = s.checkers := rfl
@[simp] theorem State.modColl_splits (f : Collection → Collection) : (s.modColl f).splits = s.splits := rfl
@[simp] theorem State.modColl_merges (f : Collection → Collection) : (s.modColl f).merges = s.merges := rfl
@[simp] theorem State.modColl_ctxs (f : Collection → Collection) : (s.modColl f).ctxs = s.ctxs := rfl
@[simp] theorem State.modColl_interval (f : Collection → Collection) : (s.modColl f).interval = s.interval := rfl
@[simp] theorem State.modColl_intervalEnd (f : Collection → Collection) : (s.modColl f).intervalEnd = s.intervalEnd := rfl
@[simp] theorem State.modColl_slots (f : Collection → Collection) : (s.modColl f).slots = s.slots := rfl
@[simp] theorem State.modColl_nextOrder (f : Collection → Collection) : (s.modColl f).nextOrder = s.nextOrder := rfl
@[simp] theorem State.modColl_overflow (f : Collection → Collection) : (s.modColl f).overflow = s.overflow := rfl
@[simp] theorem State.modColl_lost (f : Collection → Collection) : (s.modColl f).lost = s.lost := rfl
@[simp] theorem State.modColl_line (f : Collection → Collection) : (s.modColl f).line = s.line := rfl
@[simp] theorem State.modColl_roster (f : Collection → Collection) : (s.modColl f).roster = s.roster := rfl
@[simp] theorem State.modColl_peerLost (f : Collection → Collection) : (s.modColl f).peerLost = s.peerLost := rfl
@[simp] theorem State.modColl_port (f : Collection → Collection) : (s.modColl f).port = s.port := rfl
@[simp] theorem State.modColl_pending (f : Collection → Collection) : (s.modColl f).pending = s.pending := rfl
@[simp] theorem State.modColl_lane (f : Collection → Collection) (m : Lane) : (s.modColl f).lane m = s.lane m := rfl
@[simp] theorem State.modColl_tuner (f : Collection → Collection) (j : FLane) : (s.modColl f).tuner j = s.tuner j := rfl
@[simp] theorem State.modColl_checker (f : Collection → Collection) (j : CLane) : (s.modColl f).checker j = s.checker j := rfl
@[simp] theorem State.modColl_ctxOf (f : Collection → Collection) (M : Leg) : (s.modColl f).ctx? M = s.ctx? M := rfl
@[simp] theorem State.modColl_slot (f : Collection → Collection) (j : Fin 8) : (s.modColl f).slot j = s.slot j := rfl
@[simp] theorem State.modColl_outOfPlan (f : Collection → Collection) : (s.modColl f).outOfPlan = s.outOfPlan := rfl
@[simp] theorem State.modColl_station (f : Collection → Collection) : (s.modColl f).station = s.station := rfl
@[simp] theorem State.modColl_owner (f : Collection → Collection) (m : Lane) : (s.modColl f).owner m = s.owner m := rfl
@[simp] theorem State.modColl_frontLanes (f : Collection → Collection) (M : Leg) : (s.modColl f).frontLanes M = s.frontLanes M := rfl
@[simp] theorem State.modColl_cableLanes (f : Collection → Collection) (M : Leg) : (s.modColl f).cableLanes M = s.cableLanes M := rfl
@[simp] theorem State.modColl_farStation (f : Collection → Collection) (M : Leg) : (s.modColl f).farStation M = s.farStation M := rfl

/-! ### modCaptures -/

@[simp] theorem State.modCaptures_phase (f : Capture → Capture) : (s.modCaptures f).phase = s.phase := rfl
@[simp] theorem State.modCaptures_now (f : Capture → Capture) : (s.modCaptures f).now = s.now := rfl
@[simp] theorem State.modCaptures_straps (f : Capture → Capture) : (s.modCaptures f).straps = s.straps := rfl
@[simp] theorem State.modCaptures_image (f : Capture → Capture) : (s.modCaptures f).image = s.image := rfl
@[simp] theorem State.modCaptures_imageDefaulted (f : Capture → Capture) : (s.modCaptures f).imageDefaulted = s.imageDefaulted := rfl
@[simp] theorem State.modCaptures_imageAdjusted (f : Capture → Capture) : (s.modCaptures f).imageAdjusted = s.imageAdjusted := rfl
@[simp] theorem State.modCaptures_adjust (f : Capture → Capture) : (s.modCaptures f).adjust = s.adjust := rfl
@[simp] theorem State.modCaptures_slotCount (f : Capture → Capture) : (s.modCaptures f).slotCount = s.slotCount := rfl
@[simp] theorem State.modCaptures_lanes (f : Capture → Capture) : (s.modCaptures f).lanes = s.lanes := rfl
@[simp] theorem State.modCaptures_tuners (f : Capture → Capture) : (s.modCaptures f).tuners = s.tuners := rfl
@[simp] theorem State.modCaptures_checkers (f : Capture → Capture) : (s.modCaptures f).checkers = s.checkers := rfl
@[simp] theorem State.modCaptures_splits (f : Capture → Capture) : (s.modCaptures f).splits = s.splits := rfl
@[simp] theorem State.modCaptures_merges (f : Capture → Capture) : (s.modCaptures f).merges = s.merges := rfl
@[simp] theorem State.modCaptures_ctxs (f : Capture → Capture) : (s.modCaptures f).ctxs = s.ctxs := rfl
@[simp] theorem State.modCaptures_interval (f : Capture → Capture) : (s.modCaptures f).interval = s.interval := rfl
@[simp] theorem State.modCaptures_intervalEnd (f : Capture → Capture) : (s.modCaptures f).intervalEnd = s.intervalEnd := rfl
@[simp] theorem State.modCaptures_nextOrder (f : Capture → Capture) : (s.modCaptures f).nextOrder = s.nextOrder := rfl
@[simp] theorem State.modCaptures_overflow (f : Capture → Capture) : (s.modCaptures f).overflow = s.overflow := rfl
@[simp] theorem State.modCaptures_lost (f : Capture → Capture) : (s.modCaptures f).lost = s.lost := rfl
@[simp] theorem State.modCaptures_line (f : Capture → Capture) : (s.modCaptures f).line = s.line := rfl
@[simp] theorem State.modCaptures_roster (f : Capture → Capture) : (s.modCaptures f).roster = s.roster := rfl
@[simp] theorem State.modCaptures_peerLost (f : Capture → Capture) : (s.modCaptures f).peerLost = s.peerLost := rfl
@[simp] theorem State.modCaptures_coll (f : Capture → Capture) : (s.modCaptures f).coll = s.coll := rfl
@[simp] theorem State.modCaptures_port (f : Capture → Capture) : (s.modCaptures f).port = s.port := rfl
@[simp] theorem State.modCaptures_pending (f : Capture → Capture) : (s.modCaptures f).pending = s.pending := rfl
@[simp] theorem State.modCaptures_lane (f : Capture → Capture) (m : Lane) : (s.modCaptures f).lane m = s.lane m := rfl
@[simp] theorem State.modCaptures_tuner (f : Capture → Capture) (j : FLane) : (s.modCaptures f).tuner j = s.tuner j := rfl
@[simp] theorem State.modCaptures_checker (f : Capture → Capture) (j : CLane) : (s.modCaptures f).checker j = s.checker j := rfl
@[simp] theorem State.modCaptures_ctxOf (f : Capture → Capture) (M : Leg) : (s.modCaptures f).ctx? M = s.ctx? M := rfl
@[simp] theorem State.modCaptures_outOfPlan (f : Capture → Capture) : (s.modCaptures f).outOfPlan = s.outOfPlan := rfl
@[simp] theorem State.modCaptures_station (f : Capture → Capture) : (s.modCaptures f).station = s.station := rfl
@[simp] theorem State.modCaptures_owner (f : Capture → Capture) (m : Lane) : (s.modCaptures f).owner m = s.owner m := rfl
@[simp] theorem State.modCaptures_frontLanes (f : Capture → Capture) (M : Leg) : (s.modCaptures f).frontLanes M = s.frontLanes M := rfl
@[simp] theorem State.modCaptures_cableLanes (f : Capture → Capture) (M : Leg) : (s.modCaptures f).cableLanes M = s.cableLanes M := rfl
@[simp] theorem State.modCaptures_farStation (f : Capture → Capture) (M : Leg) : (s.modCaptures f).farStation M = s.farStation M := rfl

/-! ### respond -/

@[simp] theorem State.respond_phase (st : Status) (code : Byte) (body : List Byte) : (s.respond st code body).phase = s.phase := rfl
@[simp] theorem State.respond_now (st : Status) (code : Byte) (body : List Byte) : (s.respond st code body).now = s.now := rfl
@[simp] theorem State.respond_straps (st : Status) (code : Byte) (body : List Byte) : (s.respond st code body).straps = s.straps := rfl
@[simp] theorem State.respond_image (st : Status) (code : Byte) (body : List Byte) : (s.respond st code body).image = s.image := rfl
@[simp] theorem State.respond_imageDefaulted (st : Status) (code : Byte) (body : List Byte) : (s.respond st code body).imageDefaulted = s.imageDefaulted := rfl
@[simp] theorem State.respond_imageAdjusted (st : Status) (code : Byte) (body : List Byte) : (s.respond st code body).imageAdjusted = s.imageAdjusted := rfl
@[simp] theorem State.respond_adjust (st : Status) (code : Byte) (body : List Byte) : (s.respond st code body).adjust = s.adjust := rfl
@[simp] theorem State.respond_slotCount (st : Status) (code : Byte) (body : List Byte) : (s.respond st code body).slotCount = s.slotCount := rfl
@[simp] theorem State.respond_lanes (st : Status) (code : Byte) (body : List Byte) : (s.respond st code body).lanes = s.lanes := rfl
@[simp] theorem State.respond_tuners (st : Status) (code : Byte) (body : List Byte) : (s.respond st code body).tuners = s.tuners := rfl
@[simp] theorem State.respond_checkers (st : Status) (code : Byte) (body : List Byte) : (s.respond st code body).checkers = s.checkers := rfl
@[simp] theorem State.respond_splits (st : Status) (code : Byte) (body : List Byte) : (s.respond st code body).splits = s.splits := rfl
@[simp] theorem State.respond_merges (st : Status) (code : Byte) (body : List Byte) : (s.respond st code body).merges = s.merges := rfl
@[simp] theorem State.respond_ctxs (st : Status) (code : Byte) (body : List Byte) : (s.respond st code body).ctxs = s.ctxs := rfl
@[simp] theorem State.respond_interval (st : Status) (code : Byte) (body : List Byte) : (s.respond st code body).interval = s.interval := rfl
@[simp] theorem State.respond_intervalEnd (st : Status) (code : Byte) (body : List Byte) : (s.respond st code body).intervalEnd = s.intervalEnd := rfl
@[simp] theorem State.respond_slots (st : Status) (code : Byte) (body : List Byte) : (s.respond st code body).slots = s.slots := rfl
@[simp] theorem State.respond_nextOrder (st : Status) (code : Byte) (body : List Byte) : (s.respond st code body).nextOrder = s.nextOrder := rfl
@[simp] theorem State.respond_overflow (st : Status) (code : Byte) (body : List Byte) : (s.respond st code body).overflow = s.overflow := rfl
@[simp] theorem State.respond_lost (st : Status) (code : Byte) (body : List Byte) : (s.respond st code body).lost = s.lost := rfl
@[simp] theorem State.respond_line (st : Status) (code : Byte) (body : List Byte) : (s.respond st code body).line = s.line := rfl
@[simp] theorem State.respond_roster (st : Status) (code : Byte) (body : List Byte) : (s.respond st code body).roster = s.roster := rfl
@[simp] theorem State.respond_peerLost (st : Status) (code : Byte) (body : List Byte) : (s.respond st code body).peerLost = s.peerLost := rfl
@[simp] theorem State.respond_coll (st : Status) (code : Byte) (body : List Byte) : (s.respond st code body).coll = s.coll := rfl
@[simp] theorem State.respond_pending (st : Status) (code : Byte) (body : List Byte) : (s.respond st code body).pending = s.pending := rfl
@[simp] theorem State.respond_lane (st : Status) (code : Byte) (body : List Byte) (m : Lane) : (s.respond st code body).lane m = s.lane m := rfl
@[simp] theorem State.respond_tuner (st : Status) (code : Byte) (body : List Byte) (j : FLane) : (s.respond st code body).tuner j = s.tuner j := rfl
@[simp] theorem State.respond_checker (st : Status) (code : Byte) (body : List Byte) (j : CLane) : (s.respond st code body).checker j = s.checker j := rfl
@[simp] theorem State.respond_ctxOf (st : Status) (code : Byte) (body : List Byte) (M : Leg) : (s.respond st code body).ctx? M = s.ctx? M := rfl
@[simp] theorem State.respond_slot (st : Status) (code : Byte) (body : List Byte) (j : Fin 8) : (s.respond st code body).slot j = s.slot j := rfl
@[simp] theorem State.respond_outOfPlan (st : Status) (code : Byte) (body : List Byte) : (s.respond st code body).outOfPlan = s.outOfPlan := rfl
@[simp] theorem State.respond_station (st : Status) (code : Byte) (body : List Byte) : (s.respond st code body).station = s.station := rfl
@[simp] theorem State.respond_owner (st : Status) (code : Byte) (body : List Byte) (m : Lane) : (s.respond st code body).owner m = s.owner m := rfl
@[simp] theorem State.respond_frontLanes (st : Status) (code : Byte) (body : List Byte) (M : Leg) : (s.respond st code body).frontLanes M = s.frontLanes M := rfl
@[simp] theorem State.respond_cableLanes (st : Status) (code : Byte) (body : List Byte) (M : Leg) : (s.respond st code body).cableLanes M = s.cableLanes M := rfl
@[simp] theorem State.respond_farStation (st : Status) (code : Byte) (body : List Byte) (M : Leg) : (s.respond st code body).farStation M = s.farStation M := rfl

/-! ### evalTx -/

@[simp] theorem State.evalTx_phase (L : Leg) : (s.evalTx L).phase = s.phase := rfl
@[simp] theorem State.evalTx_now (L : Leg) : (s.evalTx L).now = s.now := rfl
@[simp] theorem State.evalTx_straps (L : Leg) : (s.evalTx L).straps = s.straps := rfl
@[simp] theorem State.evalTx_image (L : Leg) : (s.evalTx L).image = s.image := rfl
@[simp] theorem State.evalTx_imageDefaulted (L : Leg) : (s.evalTx L).imageDefaulted = s.imageDefaulted := rfl
@[simp] theorem State.evalTx_imageAdjusted (L : Leg) : (s.evalTx L).imageAdjusted = s.imageAdjusted := rfl
@[simp] theorem State.evalTx_adjust (L : Leg) : (s.evalTx L).adjust = s.adjust := rfl
@[simp] theorem State.evalTx_slotCount (L : Leg) : (s.evalTx L).slotCount = s.slotCount := rfl
@[simp] theorem State.evalTx_tuners (L : Leg) : (s.evalTx L).tuners = s.tuners := rfl
@[simp] theorem State.evalTx_splits (L : Leg) : (s.evalTx L).splits = s.splits := rfl
@[simp] theorem State.evalTx_merges (L : Leg) : (s.evalTx L).merges = s.merges := rfl
@[simp] theorem State.evalTx_ctxs (L : Leg) : (s.evalTx L).ctxs = s.ctxs := rfl
@[simp] theorem State.evalTx_interval (L : Leg) : (s.evalTx L).interval = s.interval := rfl
@[simp] theorem State.evalTx_intervalEnd (L : Leg) : (s.evalTx L).intervalEnd = s.intervalEnd := rfl
@[simp] theorem State.evalTx_slots (L : Leg) : (s.evalTx L).slots = s.slots := rfl
@[simp] theorem State.evalTx_nextOrder (L : Leg) : (s.evalTx L).nextOrder = s.nextOrder := rfl
@[simp] theorem State.evalTx_overflow (L : Leg) : (s.evalTx L).overflow = s.overflow := rfl
@[simp] theorem State.evalTx_lost (L : Leg) : (s.evalTx L).lost = s.lost := rfl
@[simp] theorem State.evalTx_line (L : Leg) : (s.evalTx L).line = s.line := rfl
@[simp] theorem State.evalTx_roster (L : Leg) : (s.evalTx L).roster = s.roster := rfl
@[simp] theorem State.evalTx_peerLost (L : Leg) : (s.evalTx L).peerLost = s.peerLost := rfl
@[simp] theorem State.evalTx_coll (L : Leg) : (s.evalTx L).coll = s.coll := rfl
@[simp] theorem State.evalTx_port (L : Leg) : (s.evalTx L).port = s.port := rfl
@[simp] theorem State.evalTx_pending (L : Leg) : (s.evalTx L).pending = s.pending := rfl
@[simp] theorem State.evalTx_tuner (L : Leg) (j : FLane) : (s.evalTx L).tuner j = s.tuner j := rfl
@[simp] theorem State.evalTx_ctxOf (L : Leg) (M : Leg) : (s.evalTx L).ctx? M = s.ctx? M := rfl
@[simp] theorem State.evalTx_slot (L : Leg) (j : Fin 8) : (s.evalTx L).slot j = s.slot j := rfl
@[simp] theorem State.evalTx_outOfPlan (L : Leg) : (s.evalTx L).outOfPlan = s.outOfPlan := rfl
@[simp] theorem State.evalTx_station (L : Leg) : (s.evalTx L).station = s.station := rfl
@[simp] theorem State.evalTx_owner (L : Leg) (m : Lane) : (s.evalTx L).owner m = s.owner m := rfl
@[simp] theorem State.evalTx_frontLanes (L : Leg) (M : Leg) : (s.evalTx L).frontLanes M = s.frontLanes M := rfl
@[simp] theorem State.evalTx_cableLanes (L : Leg) (M : Leg) : (s.evalTx L).cableLanes M = s.cableLanes M := rfl
@[simp] theorem State.evalTx_farStation (L : Leg) (M : Leg) : (s.evalTx L).farStation M = s.farStation M := rfl

/-! ### modCtx -/

@[simp] theorem State.modCtx_phase (L : Leg) (f : Ctx → Ctx) : (s.modCtx L f).phase = s.phase := by
  unfold State.modCtx; cases s.ctxs.get L <;> rfl
@[simp] theorem State.modCtx_now (L : Leg) (f : Ctx → Ctx) : (s.modCtx L f).now = s.now := by
  unfold State.modCtx; cases s.ctxs.get L <;> rfl
@[simp] theorem State.modCtx_straps (L : Leg) (f : Ctx → Ctx) : (s.modCtx L f).straps = s.straps := by
  unfold State.modCtx; cases s.ctxs.get L <;> rfl
@[simp] theorem State.modCtx_image (L : Leg) (f : Ctx → Ctx) : (s.modCtx L f).image = s.image := by
  unfold State.modCtx; cases s.ctxs.get L <;> rfl
@[simp] theorem State.modCtx_imageDefaulted (L : Leg) (f : Ctx → Ctx) : (s.modCtx L f).imageDefaulted = s.imageDefaulted := by
  unfold State.modCtx; cases s.ctxs.get L <;> rfl
@[simp] theorem State.modCtx_imageAdjusted (L : Leg) (f : Ctx → Ctx) : (s.modCtx L f).imageAdjusted = s.imageAdjusted := by
  unfold State.modCtx; cases s.ctxs.get L <;> rfl
@[simp] theorem State.modCtx_adjust (L : Leg) (f : Ctx → Ctx) : (s.modCtx L f).adjust = s.adjust := by
  unfold State.modCtx; cases s.ctxs.get L <;> rfl
@[simp] theorem State.modCtx_slotCount (L : Leg) (f : Ctx → Ctx) : (s.modCtx L f).slotCount = s.slotCount := by
  unfold State.modCtx; cases s.ctxs.get L <;> rfl
@[simp] theorem State.modCtx_lanes (L : Leg) (f : Ctx → Ctx) : (s.modCtx L f).lanes = s.lanes := by
  unfold State.modCtx; cases s.ctxs.get L <;> rfl
@[simp] theorem State.modCtx_tuners (L : Leg) (f : Ctx → Ctx) : (s.modCtx L f).tuners = s.tuners := by
  unfold State.modCtx; cases s.ctxs.get L <;> rfl
@[simp] theorem State.modCtx_checkers (L : Leg) (f : Ctx → Ctx) : (s.modCtx L f).checkers = s.checkers := by
  unfold State.modCtx; cases s.ctxs.get L <;> rfl
@[simp] theorem State.modCtx_splits (L : Leg) (f : Ctx → Ctx) : (s.modCtx L f).splits = s.splits := by
  unfold State.modCtx; cases s.ctxs.get L <;> rfl
@[simp] theorem State.modCtx_merges (L : Leg) (f : Ctx → Ctx) : (s.modCtx L f).merges = s.merges := by
  unfold State.modCtx; cases s.ctxs.get L <;> rfl
@[simp] theorem State.modCtx_interval (L : Leg) (f : Ctx → Ctx) : (s.modCtx L f).interval = s.interval := by
  unfold State.modCtx; cases s.ctxs.get L <;> rfl
@[simp] theorem State.modCtx_intervalEnd (L : Leg) (f : Ctx → Ctx) : (s.modCtx L f).intervalEnd = s.intervalEnd := by
  unfold State.modCtx; cases s.ctxs.get L <;> rfl
@[simp] theorem State.modCtx_slots (L : Leg) (f : Ctx → Ctx) : (s.modCtx L f).slots = s.slots := by
  unfold State.modCtx; cases s.ctxs.get L <;> rfl
@[simp] theorem State.modCtx_nextOrder (L : Leg) (f : Ctx → Ctx) : (s.modCtx L f).nextOrder = s.nextOrder := by
  unfold State.modCtx; cases s.ctxs.get L <;> rfl
@[simp] theorem State.modCtx_overflow (L : Leg) (f : Ctx → Ctx) : (s.modCtx L f).overflow = s.overflow := by
  unfold State.modCtx; cases s.ctxs.get L <;> rfl
@[simp] theorem State.modCtx_lost (L : Leg) (f : Ctx → Ctx) : (s.modCtx L f).lost = s.lost := by
  unfold State.modCtx; cases s.ctxs.get L <;> rfl
@[simp] theorem State.modCtx_line (L : Leg) (f : Ctx → Ctx) : (s.modCtx L f).line = s.line := by
  unfold State.modCtx; cases s.ctxs.get L <;> rfl
@[simp] theorem State.modCtx_roster (L : Leg) (f : Ctx → Ctx) : (s.modCtx L f).roster = s.roster := by
  unfold State.modCtx; cases s.ctxs.get L <;> rfl
@[simp] theorem State.modCtx_peerLost (L : Leg) (f : Ctx → Ctx) : (s.modCtx L f).peerLost = s.peerLost := by
  unfold State.modCtx; cases s.ctxs.get L <;> rfl
@[simp] theorem State.modCtx_coll (L : Leg) (f : Ctx → Ctx) : (s.modCtx L f).coll = s.coll := by
  unfold State.modCtx; cases s.ctxs.get L <;> rfl
@[simp] theorem State.modCtx_port (L : Leg) (f : Ctx → Ctx) : (s.modCtx L f).port = s.port := by
  unfold State.modCtx; cases s.ctxs.get L <;> rfl
@[simp] theorem State.modCtx_pending (L : Leg) (f : Ctx → Ctx) : (s.modCtx L f).pending = s.pending := by
  unfold State.modCtx; cases s.ctxs.get L <;> rfl
@[simp] theorem State.modCtx_lane (L : Leg) (f : Ctx → Ctx) (m : Lane) : (s.modCtx L f).lane m = s.lane m := by
  unfold State.modCtx; cases s.ctxs.get L <;> rfl
@[simp] theorem State.modCtx_tuner (L : Leg) (f : Ctx → Ctx) (j : FLane) : (s.modCtx L f).tuner j = s.tuner j := by
  unfold State.modCtx; cases s.ctxs.get L <;> rfl
@[simp] theorem State.modCtx_checker (L : Leg) (f : Ctx → Ctx) (j : CLane) : (s.modCtx L f).checker j = s.checker j := by
  unfold State.modCtx; cases s.ctxs.get L <;> rfl
@[simp] theorem State.modCtx_slot (L : Leg) (f : Ctx → Ctx) (j : Fin 8) : (s.modCtx L f).slot j = s.slot j := by
  unfold State.modCtx; cases s.ctxs.get L <;> rfl
@[simp] theorem State.modCtx_outOfPlan (L : Leg) (f : Ctx → Ctx) : (s.modCtx L f).outOfPlan = s.outOfPlan := by
  unfold State.modCtx; cases s.ctxs.get L <;> rfl
@[simp] theorem State.modCtx_station (L : Leg) (f : Ctx → Ctx) : (s.modCtx L f).station = s.station := by
  unfold State.modCtx; cases s.ctxs.get L <;> rfl
@[simp] theorem State.modCtx_owner (L : Leg) (f : Ctx → Ctx) (m : Lane) : (s.modCtx L f).owner m = s.owner m := by
  unfold State.modCtx; cases s.ctxs.get L <;> rfl
@[simp] theorem State.modCtx_frontLanes (L : Leg) (f : Ctx → Ctx) (M : Leg) : (s.modCtx L f).frontLanes M = s.frontLanes M := by
  unfold State.modCtx; cases s.ctxs.get L <;> rfl
@[simp] theorem State.modCtx_cableLanes (L : Leg) (f : Ctx → Ctx) (M : Leg) : (s.modCtx L f).cableLanes M = s.cableLanes M := by
  unfold State.modCtx; cases s.ctxs.get L <;> rfl
@[simp] theorem State.modCtx_farStation (L : Leg) (f : Ctx → Ctx) (M : Leg) : (s.modCtx L f).farStation M = s.farStation M := by
  unfold State.modCtx; cases s.ctxs.get L <;> rfl

end Sys2Proof.Machine
end

