-- ==== Sys2Proof/Laws/Access.lean ====
section
/-! SUPPORT. Reading what an update wrote, one lemma for the unit written and one for the others; maps and folds over
units. -/

namespace Sys2Proof.Machine

variable (s : State)

/-! ## Vectors -/

theorem Vector.get_set_eq {α : Type} {n : Nat} (v : Vector α n) (i : Fin n) (x : α) :
    (v.set i.val x i.isLt).get i = x := by
  simp [Vector.get_eq_getElem]

theorem Vector.get_set_ne {α : Type} {n : Nat} (v : Vector α n) {i j : Fin n} (x : α) (h : j ≠ i) :
    (v.set i.val x i.isLt).get j = v.get j := by
  have : i.val ≠ j.val := fun e => h (Fin.ext e.symm)
  simp [Vector.get_eq_getElem, Vector.getElem_set_ne, this]

theorem map16_get {α β : Type} (f : Fin 16 → α → β) (v : Vector α 16) (i : Fin 16) :
    (map16 f v).get i = f i (v.get i) := by
  fin_cases i <;> rfl

theorem map8_get {α β : Type} (f : Fin 8 → α → β) (v : Vector α 8) (i : Fin 8) :
    (map8 f v).get i = f i (v.get i) := by
  fin_cases i <;> rfl

theorem map9_get {α β : Type} (f : Fin 9 → α → β) (v : Vector α 9) (i : Fin 9) :
    (map9 f v).get i = f i (v.get i) := by
  fin_cases i <;> rfl

/-! ## Units -/

@[simp] theorem State.lane_modLane (l : Lane) (f : LaneUnit → LaneUnit) :
    (s.modLane l f).lane l = f (s.lane l) := Vector.get_set_eq _ _ _

theorem State.lane_modLane_ne {l m : Lane} (f : LaneUnit → LaneUnit) (h : m ≠ l) :
    (s.modLane l f).lane m = s.lane m := Vector.get_set_ne _ _ h

@[simp] theorem State.tuner_modTuner (k : FLane) (f : Tuner → Tuner) :
    (s.modTuner k f).tuner k = f (s.tuner k) := Vector.get_set_eq _ _ _

theorem State.tuner_modTuner_ne {k j : FLane} (f : Tuner → Tuner) (h : j ≠ k) :
    (s.modTuner k f).tuner j = s.tuner j := Vector.get_set_ne _ _ h

@[simp] theorem State.checker_modChecker (k : CLane) (f : Checker → Checker) :
    (s.modChecker k f).checker k = f (s.checker k) := Vector.get_set_eq _ _ _

theorem State.checker_modChecker_ne {k j : CLane} (f : Checker → Checker) (h : j ≠ k) :
    (s.modChecker k f).checker j = s.checker j := Vector.get_set_ne _ _ h

@[simp] theorem State.split_modSplit (k : CLane) (f : Split → Split) :
    (s.modSplit k f).split k = f (s.split k) := Vector.get_set_eq _ _ _

theorem State.split_modSplit_ne {k j : CLane} (f : Split → Split) (h : j ≠ k) :
    (s.modSplit k f).split j = s.split j := Vector.get_set_ne _ _ h

@[simp] theorem State.merge_modMerge (k : CLane) (f : Merge → Merge) :
    (s.modMerge k f).merge k = f (s.merge k) := Vector.get_set_eq _ _ _

theorem State.merge_modMerge_ne {k j : CLane} (f : Merge → Merge) (h : j ≠ k) :
    (s.modMerge k f).merge j = s.merge j := Vector.get_set_ne _ _ h

@[simp] theorem State.slot_setSlot (i : Fin 8) (c : Option Capture) : (s.setSlot i c).slot i = c :=
  Vector.get_set_eq _ _ _

theorem State.slot_setSlot_ne {i j : Fin 8} (c : Option Capture) (h : j ≠ i) :
    (s.setSlot i c).slot j = s.slot j := Vector.get_set_ne _ _ h

/-! ## Contexts -/

@[simp] theorem State.ctx?_modCtx (L : Leg) (f : Ctx → Ctx) : (s.modCtx L f).ctx? L = (s.ctx? L).map f := by
  unfold State.modCtx State.ctx?
  cases h : s.ctxs.get L with
  | none => simp [h]
  | some c => exact Vector.get_set_eq _ _ _

theorem State.ctx?_modCtx_ne {L M : Leg} (f : Ctx → Ctx) (h : M ≠ L) : (s.modCtx L f).ctx? M = s.ctx? M := by
  unfold State.modCtx State.ctx?
  cases s.ctxs.get L with
  | none => rfl
  | some c => exact Vector.get_set_ne _ _ h

theorem State.ctx_modCtx {L : Leg} (f : Ctx → Ctx) (h : (s.ctx? L).isSome = true) :
    (s.modCtx L f).ctx L = f (s.ctx L) := by
  obtain ⟨c, hc⟩ := Option.isSome_iff_exists.mp h
  simp [State.ctx, hc]

theorem State.ctx_modCtx_ne {L M : Leg} (f : Ctx → Ctx) (h : M ≠ L) : (s.modCtx L f).ctx M = s.ctx M := by
  simp [State.ctx, s.ctx?_modCtx_ne f h]

/-- An update of one context leaves which contexts there are. -/
@[simp] theorem State.modCtx_isSome (L M : Leg) (f : Ctx → Ctx) :
    ((s.modCtx L f).ctx? M).isSome = (s.ctx? M).isSome := by
  by_cases h : M = L
  · subst h; simp
  · rw [s.ctx?_modCtx_ne f h]

/-! ## The single updates -/

@[simp] theorem State.line_modLine (f : Line → Line) : (s.modLine f).line = f s.line := rfl
@[simp] theorem State.port_modPort (f : Port → Port) : (s.modPort f).port = f s.port := rfl
@[simp] theorem State.coll_modColl (f : Collection → Collection) : (s.modColl f).coll = f s.coll := rfl
@[simp] theorem State.now_reach (t : Timer) : (s.reach t).now = max s.now (t.getD 0) := rfl
@[simp] theorem State.port_respond (st : Status) (code : Byte) (body : List Byte) :
    (s.respond st code body).port = { s.port with reply := ⟨st, code, body⟩ } := rfl

/-! ## Choosing -/

theorem better_mem {α : Type} {before : α → α → Bool} (xs : List α) (best : Option α) {x : α}
    (h : xs.foldl (better before) best = some x) : x ∈ xs ∨ best = some x := by
  induction xs generalizing best with
  | nil => exact .inr h
  | cons y ys ih =>
    rcases ih _ h with hm | he
    · exact .inl (List.mem_cons_of_mem _ hm)
    · cases best with
      | none => exact .inl (by simp_all [better])
      | some z =>
        simp only [better] at he
        split at he
        · exact .inl (by simp_all)
        · exact .inr he

/-- What `firstBy` answers is a member of the list. -/
theorem firstBy_mem {α : Type} {before : α → α → Bool} {xs : List α} {x : α} (h : firstBy before xs = some x) :
    x ∈ xs := (better_mem xs none h).resolve_right (by simp)

/-! ## Folds over legs and lanes -/

/-- What one operation keeps, its repetition over a list of legs keeps. -/
theorem forLegs_keeps {P : State → Prop} {op : Leg → State → State} (h : ∀ L t, P t → P (op L t)) (ls : List Leg)
    {t : State} (ht : P t) : P (forLegs op ls t) := by
  induction ls generalizing t with
  | nil => exact ht
  | cons L ls ih => exact ih (h L t ht)

/-- What one operation keeps, its repetition over a list of lane numbers keeps. -/
theorem forLanes_keeps {P : State → Prop} {op : Fin 8 → State → State} (h : ∀ k t, P t → P (op k t))
    (ks : List (Fin 8)) {t : State} (ht : P t) : P (forLanes op ks t) := by
  induction ks generalizing t with
  | nil => exact ht
  | cons k ks ih => exact ih (h k t ht)

end Sys2Proof.Machine
end

