-- ==== Sys2Proof/Laws/Frames.lean ====
section
/-! SUPPORT. Every shared operation of a context keeps the frame of its leg. -/

namespace Sys2Proof.Machine

/-! ## Reflexivity and transitivity -/

theorem Line.SameButQueued.refl (a : Line) : a.SameButQueued a := ⟨rfl, List.prefix_rfl, List.prefix_rfl⟩

theorem Line.SameButQueued.trans {a b c : Line} (h : a.SameButQueued b) (g : b.SameButQueued c) :
    a.SameButQueued c := by
  refine ⟨?_, h.urgent.trans g.urgent, h.status.trans g.status⟩
  have hr := h.rest; have gr := g.rest
  rw [hr] at gr
  exact gr

theorem Port.SameButCauses.refl (a : Port) : a.SameButCauses a := ⟨rfl, BitVec.and_self⟩

theorem Port.SameButCauses.trans {a b c : Port} (h : a.SameButCauses b) (g : b.SameButCauses c) :
    a.SameButCauses c := by
  refine ⟨?_, ?_⟩
  · have hr := h.rest; have gr := g.rest
    rw [hr] at gr
    exact gr
  · rw [← h.causes, BitVec.and_assoc, g.causes]

theorem LegFrame.refl (L : Leg) (s : State) : LegFrame L s s :=
  ⟨rfl, .refl _, .refl _, fun _ _ => rfl, fun _ _ => rfl, fun _ _ => rfl, fun _ _ => ⟨rfl, rfl, rfl⟩,
    fun _ _ h _ => h⟩

section
variable {L : Leg} {s t u : State} (h : LegFrame L s t)
include h

theorem LegFrame.phase : t.phase = s.phase := by have e := congrArg State.phase h.rest; exact e
theorem LegFrame.straps : t.straps = s.straps := by have e := congrArg State.straps h.rest; exact e
theorem LegFrame.image : t.image = s.image := by have e := congrArg State.image h.rest; exact e
theorem LegFrame.interval : t.interval = s.interval := by have e := congrArg State.interval h.rest; exact e
theorem LegFrame.roster : t.roster = s.roster := by have e := congrArg State.roster h.rest; exact e
theorem LegFrame.coll : t.coll = s.coll := by have e := congrArg State.coll h.rest; exact e
theorem LegFrame.pending : t.pending = s.pending := by have e := congrArg State.pending h.rest; exact e

theorem LegFrame.gear : t.gear = s.gear := by simp only [State.gear, h.straps, h.image]
theorem LegFrame.outOfPlan : t.outOfPlan = s.outOfPlan := by simp only [State.outOfPlan, h.straps]
theorem LegFrame.station : t.station = s.station := by simp only [State.station, h.straps]
theorem LegFrame.farStation (M : Leg) : t.farStation M = s.farStation M := by simp only [State.farStation, h.straps]
theorem LegFrame.owner (l : Lane) : t.owner l = s.owner l := by
  simp only [State.owner, h.straps, h.gear, h.station]
theorem LegFrame.frontLanes (M : Leg) : t.frontLanes M = s.frontLanes M := by simp only [State.frontLanes, h.owner]
theorem LegFrame.cableLanes (M : Leg) : t.cableLanes M = s.cableLanes M := by simp only [State.cableLanes, h.owner]

theorem LegFrame.trans (g : LegFrame L t u) : LegFrame L s u where
  rest := by
    have hr := h.rest; have gr := g.rest
    rw [hr] at gr
    exact gr
  line := h.line.trans g.line
  port := h.port.trans g.port
  ctxs M hM := (g.ctxs M hM).trans (h.ctxs M hM)
  lanes l hl := (g.lanes l (by rwa [h.owner])).trans (h.lanes l hl)
  tuners k hk := (g.tuners k (by rwa [h.owner])).trans (h.tuners k hk)
  cables k hk := by
    obtain ⟨a, b, c⟩ := g.cables k (by rwa [h.owner])
    obtain ⟨a', b', c'⟩ := h.cables k hk
    exact ⟨a.trans a', b.trans b', c.trans c'⟩
  slots i c hi hc := g.slots i c (h.slots i c hi hc) hc

end

/-! ## The single updates -/

variable {L : Leg} (s : State)

theorem LegFrame.reach (d : Timer) : LegFrame L s (s.reach d) :=
  { LegFrame.refl L s with rest := rfl }

theorem LegFrame.modLane {l : Lane} (f : LaneUnit → LaneUnit) (h : s.owner l = some L) :
    LegFrame L s (s.modLane l f) :=
  { LegFrame.refl L s with
    rest := rfl
    lanes := fun _ hm => s.lane_modLane_ne f (fun e => hm (e ▸ h)) }

theorem LegFrame.modTuner {k : FLane} (f : Tuner → Tuner) (h : s.owner (frontLane k) = some L) :
    LegFrame L s (s.modTuner k f) :=
  { LegFrame.refl L s with
    rest := rfl
    tuners := fun _ hm => s.tuner_modTuner_ne f (fun e => hm (e ▸ h)) }

theorem LegFrame.modChecker {k : CLane} (f : Checker → Checker) (h : s.owner (cableLane k) = some L) :
    LegFrame L s (s.modChecker k f) :=
  { LegFrame.refl L s with
    rest := rfl
    cables := fun _ hm => ⟨s.checker_modChecker_ne f (fun e => hm (e ▸ h)), rfl, rfl⟩ }

theorem LegFrame.modSplit {k : CLane} (f : Split → Split) (h : s.owner (cableLane k) = some L) :
    LegFrame L s (s.modSplit k f) :=
  { LegFrame.refl L s with
    rest := rfl
    cables := fun _ hm => ⟨rfl, s.split_modSplit_ne f (fun e => hm (e ▸ h)), rfl⟩ }

theorem LegFrame.modMerge {k : CLane} (f : Merge → Merge) (h : s.owner (cableLane k) = some L) :
    LegFrame L s (s.modMerge k f) :=
  { LegFrame.refl L s with
    rest := rfl
    cables := fun _ hm => ⟨rfl, rfl, s.merge_modMerge_ne f (fun e => hm (e ▸ h))⟩ }

theorem LegFrame.modCtx (f : Ctx → Ctx) : LegFrame L s (s.modCtx L f) :=
  { LegFrame.refl L s with
    rest := by unfold State.modCtx; cases s.ctxs.get L <;> rfl
    line := by rw [State.modCtx_line]; exact .refl _
    port := by rw [State.modCtx_port]; exact .refl _
    lanes := fun _ _ => State.modCtx_lane ..
    tuners := fun _ _ => State.modCtx_tuner ..
    cables := fun _ _ => ⟨State.modCtx_checker .., by simp [State.split], by simp [State.merge]⟩
    slots := fun _ _ h _ => by rwa [State.modCtx_slot]
    ctxs := fun M hM => s.ctx?_modCtx_ne f hM }

theorem LegFrame.modSeg (g : Segment) (f : Seg → Seg) : LegFrame L s (s.modSeg L g f) := LegFrame.modCtx s _

theorem LegFrame.modLine {f : Line → Line} (h : s.line.SameButQueued (f s.line)) : LegFrame L s (s.modLine f) :=
  { LegFrame.refl L s with rest := rfl, line := h }

theorem LegFrame.modPort {f : Port → Port} (h : s.port.SameButCauses (f s.port)) : LegFrame L s (s.modPort f) :=
  { LegFrame.refl L s with rest := rfl, port := h }

/-- What keeps the frame for each lane of a list keeps it for the list. -/
theorem LegFrame.forLanes {op : Fin 8 → State → State} (ks : List (Fin 8))
    (h : ∀ k ∈ ks, ∀ t, LegFrame L s t → LegFrame L t (op k t)) : LegFrame L s (forLanes op ks s) := by
  suffices ∀ (js : List (Fin 8)) (t : State), (∀ k ∈ js, k ∈ ks) → LegFrame L s t → LegFrame L s (Machine.forLanes op js t)
    from this ks s (fun _ hk => hk) (.refl L s)
  intro js
  induction js with
  | nil => intro t _ ht; exact ht
  | cons k js ih =>
    intro t hm ht
    exact ih (op k t) (fun j hj => hm j (List.mem_cons_of_mem _ hj))
      (ht.trans (h k (hm k List.mem_cons_self) t ht))

theorem State.mem_frontLanes {k : FLane} : k ∈ s.frontLanes L ↔ s.owner (frontLane k) = some L := by
  simp only [State.frontLanes, List.mem_filter, beq_iff_eq, and_iff_right_iff_imp]
  intro _
  fin_cases k <;> decide

theorem State.mem_cableLanes {k : CLane} : k ∈ s.cableLanes L ↔ s.owner (cableLane k) = some L := by
  simp only [State.cableLanes, List.mem_filter, beq_iff_eq, and_iff_right_iff_imp]
  intro _
  fin_cases k <;> decide

/-! ## Attention (R198, R199) -/

theorem Port.SameButCauses.withCauses (p : Port) (m : CauseSet) :
    p.SameButCauses { p with causes := p.causes ||| m } :=
  ⟨rfl, by ext i; simp; tauto⟩

theorem LegFrame.refreshAttention : LegFrame L s s.refreshAttention := by
  unfold State.refreshAttention
  split
  · split
    · exact .refl L s
    · exact .modPort s ⟨rfl, BitVec.and_self⟩
  · split
    · exact .modPort s ⟨rfl, BitVec.and_self⟩
    · exact .refl L s

theorem LegFrame.addCauses (m : CauseSet) : LegFrame L s (s.addCauses m) :=
  (LegFrame.modPort s (.withCauses s.port m)).trans (.refreshAttention _)

theorem LegFrame.setCause (a : Attn) : LegFrame L s (s.setCause a) := .addCauses s _

/-! ## Queues (R116 to R118, R122) -/

theorem Line.SameButQueued.put {P : MsgBody → Bool} {b : MsgBody} (l : Line) (hb : classOf b = .status) :
    l.SameButQueued (l.joinMsg b) ∧ l.SameButQueued (l.replaceMsg .status P b) := by
  refine ⟨⟨?_, ?_, ?_⟩, ⟨rfl, List.prefix_rfl, ?_⟩⟩
  · simp only [Line.joinMsg, hb, Line.modQueue]
  · simp only [Line.joinMsg, hb, Line.modQueue]; exact List.prefix_rfl
  · simp only [Line.joinMsg, hb, Line.modQueue, List.map_append]; exact List.prefix_append _ _
  · simp only [Line.replaceMsg, Line.modQueue, List.map_map]
    have e : (fun m : Msg => (m.join, m.waits)) ∘ (fun m => if P m.body then { m with body := b, fails := 0 } else m)
        = fun m => (m.join, m.waits) := by
      funext m
      simp only [Function.comp]
      split <;> rfl
    rw [e]

theorem Line.SameButQueued.putBeacon (why : OwedBeacon) (l : Line) : l.SameButQueued (l.putBeacon why) := by
  unfold Line.putBeacon
  split
  · exact (Line.SameButQueued.put (P := isBeacon) l rfl).1
  · split
    · exact ⟨rfl, List.prefix_rfl, List.prefix_rfl⟩
    · exact (Line.SameButQueued.put l rfl).2

theorem Line.SameButQueued.putSleep (k : SleepKind) (M : Leg) (l : Line) : l.SameButQueued (l.putSleep k M) := by
  unfold Line.putSleep
  split
  · exact (Line.SameButQueued.put (P := isBeacon) l rfl).1
  · split
    · exact ⟨rfl, List.prefix_rfl, List.prefix_rfl⟩
    · exact (Line.SameButQueued.put l rfl).2

theorem LegFrame.queueBeacon (why : OwedBeacon) : LegFrame L s (s.queueBeacon why) := by
  unfold State.queueBeacon State.queueLine
  split
  · exact .refl L s
  · exact .modLine s (.putBeacon why _)

theorem LegFrame.queueSleep (k : SleepKind) (M : Leg) : LegFrame L s (s.queueSleep k M) := by
  unfold State.queueSleep State.queueLine
  split
  · exact .refl L s
  · exact .modLine s (.putSleep k M _)

theorem LegFrame.changeNotice : LegFrame L s s.changeNotice := by
  unfold State.changeNotice
  split
  · exact .refl L s
  · split
    · split
      · exact .modLine s ⟨rfl, List.prefix_rfl, List.prefix_rfl⟩
      · exact .refl L s
    · split
      · exact .refl L s
      · split
        · exact .queueBeacon s _
        · split
          · exact .queueBeacon s _
          · exact .modLine s ⟨rfl, List.prefix_rfl, List.prefix_rfl⟩

/-! ## Transmitters (R30) -/

theorem seedOnEntry_same (k : CLane) (m : TxMode) (ch : Checker) : seedOnEntry k m m ch = ch := by
  unfold seedOnEntry
  rw [if_neg]
  exact fun h => h.2 h.1

theorem State.lane_evalTx (l : Lane) : (s.evalTx L).lane l =
    if s.owner l = some L then retarget (s.tableMode l) (s.sourcePrimed l) (s.lane l) else s.lane l := map16_get ..

theorem State.checker_evalTx (k : CLane) : (s.evalTx L).checker k =
    seedOnEntry k (s.lane (cableLane k)).mode ((s.evalTx L).lane (cableLane k)).mode (s.checker k) := map8_get ..

theorem LegFrame.evalTx : LegFrame L s (s.evalTx L) :=
  { LegFrame.refl L s with
    rest := rfl
    lanes := fun l hl => by rw [s.lane_evalTx, if_neg hl]
    cables := fun k hk => ⟨by rw [s.checker_evalTx, s.lane_evalTx, if_neg hk, seedOnEntry_same], rfl, rfl⟩ }

/-! ## Captures and alerts (R163, R174, R175) -/

/-- An opening takes a slot that is FREE or RETRIEVED (R174). -/
theorem allocate_free {i : Fin 8} {c : Capture} (h : s.allocate = some i) (hi : s.slot i = some c) :
    c.state = .retrieved := by
  unfold State.allocate at h
  split at h
  · rename_i j hj
    have := List.find?_some hj
    simp_all
  · have := (List.mem_filter.mp (firstBy_mem h)).2
    simpa [isRetrieved, hi] using this

theorem LegFrame.openCapture (trig : Option Byte) (origin : Station) (cause : Nat) (x : IntervalNo)
    (isLocal unshared : Bool) (link : Option Nat) (M : Leg) :
    LegFrame L s (openCapture trig origin cause x isLocal unshared link M s) := by
  unfold Machine.openCapture
  split
  · exact LegFrame.trans (t := { s with overflow := true, lost := satInc cap16 s.lost })
      { LegFrame.refl L s with rest := rfl } (.setCause _ _)
  · rename_i i hi
    have key : ∀ c : Capture, LegFrame L s { s.setSlot i (some c) with nextOrder := s.nextOrder + 1 } := fun c =>
      { LegFrame.refl L s with
        rest := rfl
        slots := fun j d hj hd => by
          by_cases e : j = i
          · exact absurd (allocate_free s hi (e ▸ hj)) hd
          · exact (s.slot_setSlot_ne _ e).trans hj }
    simp only
    split
    · exact (key _).trans (.setCause _ _)
    · exact key _

theorem LegFrame.openFor (trig : Option Byte) (origin : Station) (cause : Nat) (x : IntervalNo)
    (isLocal unshared : Bool) (link : Option Nat) (ls : List Leg) {t : State} (h : LegFrame L s t) :
    LegFrame L s (forLegs (Machine.openCapture trig origin cause x isLocal unshared link) ls t) :=
  forLegs_keeps (P := LegFrame L s) (fun _ u hu => hu.trans (.openCapture u ..)) ls h

theorem LegFrame.originate (o : AlertOrigin) (code : Nat) (field : Leg) (ls : List Leg) (x : IntervalNo) :
    LegFrame L s (originate o code field ls x s) := by
  unfold Machine.originate
  split
  · exact .refl L s
  · split
    · exact .openFor s _ _ _ _ _ _ _ _ (.refl L s)
    · split
      · exact LegFrame.trans (.openFor s _ _ _ _ _ _ _ _ (.refl L s))
          (.modLine _ ⟨by simp only [Line.joinMsg, classOf, Line.modQueue],
            List.prefix_append _ _, List.prefix_rfl⟩)
      · exact LegFrame.trans (.openFor s _ _ _ _ _ _ _ _ (.refl L s))
          (.modLine _ ⟨rfl, List.prefix_rfl, List.prefix_rfl⟩)

end Sys2Proof.Machine
end

