-- ==== Sys2Proof/Laws/Legs.lean ====
section
/-! SUPPORT. What the leg controller and the monitor can do to one context, said once: whatever is closed under the
single updates they are made of, every one of their operations keeps. -/

namespace Sys2Proof.Machine

/-- A segment but for what the monitor and the leg controller change: strain, grade and fail entries stand. -/
def Seg.SameStrain (a b : Seg) : Prop := b.strain = a.strain ∧ b.grade = a.grade ∧ b.failEntries = a.failEntries

/-- A context whose segments have changed in nothing but a last reason, with leg grade and ring as they were. -/
structure Ctx.SameHistory (a b : Ctx) : Prop where
  front : b.front = { a.front with lastReason := b.front.lastReason }
  cable : b.cable = { a.cable with lastReason := b.cable.lastReason }
  grade : b.legGrade = a.legGrade
  ring  : b.ring = a.ring

/-- A lane unit but for its marker lock. -/
def LaneUnit.SameReceiver (a b : LaneUnit) : Prop :=
  b = { a with lock := b.lock, badRun := b.badRun, pos := b.pos, markerLosses := b.markerLosses, mismatches := b.mismatches }

/-- Closed under the single updates of the leg controller for context `L`. -/
structure LegClosed (L : Leg) (P : State → Prop) : Prop where
  evalTx : ∀ {s : State}, P s → P (s.evalTx L)
  ctx : ∀ {s : State} {f : Ctx → Ctx}, (∀ c : Ctx, c.SameHistory (f c)) → P s → P (s.modCtx L f)
  tune : ∀ {s : State} {k : FLane}, s.owner (frontLane k) = some L → P s → P (s.tryTuning k)
  restart : ∀ {s : State} {k : FLane}, s.owner (frontLane k) = some L → P s →
    P (s.modTuner k (Tuner.restart (s.initialTaps k)))
  wait : ∀ {s : State} {k : FLane}, s.owner (frontLane k) = some L → P s → P (s.modTuner k Tuner.toWaiting)
  arm : ∀ {s : State} {k : CLane}, s.owner (cableLane k) = some L → P s → P (armChecker k s)
  disarm : ∀ {s : State} {k : CLane}, s.owner (cableLane k) = some L → P s → P (s.modChecker k Checker.disarm)
  cause : ∀ {s : State} (a : Attn), P s → P (s.setCause a)
  notice : ∀ {s : State}, P s → P s.changeNotice
  sleep : ∀ {s : State} (k : SleepKind), P s → P (s.queueSleep k L)
  origin : ∀ {s : State} (o : AlertOrigin) (code : Nat) (x : IntervalNo), P s → P (originate o code L [L] x s)

/-- Closed under the single updates of the monitor as well. -/
structure LaneClosed (L : Leg) (P : State → Prop) : Prop extends LegClosed L P where
  lane : ∀ {s : State} {l : Lane} {f : LaneUnit → LaneUnit}, s.owner l = some L → (∀ u : LaneUnit, u.SameReceiver (f u)) → P s →
    P (s.modLane l f)
  seg : ∀ {s : State} {g : Segment} {f : Seg → Seg}, (∀ x : Seg, x.SameStrain (f x)) → P s → P (s.modSeg L g f)
  split : ∀ {s : State} {k : CLane} {f : Split → Split}, s.owner (cableLane k) = some L → P s → P (s.modSplit k f)
  merge : ∀ {s : State} {k : CLane} {f : Merge → Merge}, s.owner (cableLane k) = some L → P s → P (s.modMerge k f)
  lost : ∀ {s : State} {k : FLane}, s.owner (frontLane k) = some L → P s → P (s.modTuner k Tuner.lostLock)
  pin : ∀ {s : State} {k : CLane}, s.owner (cableLane k) = some L → P s →
    P (s.modChecker k fun ch => if ch.armed then { ch with dead := true, count := cap16 } else ch)

/-! ## The lanes of a context under an operation repeated over them -/

/-- What keeps `P` and the map of lanes for each lane of a list keeps `P` for the list. -/
theorem forLanes_of_mem {P : State → Prop} {op : Fin 8 → State → State} {s : State} (ks : List (Fin 8))
    (same : ∀ k t l, (op k t).owner l = t.owner l)
    (h : ∀ k ∈ ks, ∀ t, (∀ l, t.owner l = s.owner l) → P t → P (op k t)) (hs : P s) : P (forLanes op ks s) := by
  suffices ∀ (js : List (Fin 8)) (t : State), (∀ k ∈ js, k ∈ ks) → (∀ l, t.owner l = s.owner l) → P t →
      P (forLanes op js t) from this ks s (fun _ hk => hk) (fun _ => rfl) hs
  intro js
  induction js with
  | nil => intro t _ _ ht; exact ht
  | cons k js ih =>
    intro t hm ho ht
    exact ih (op k t) (fun j hj => hm j (List.mem_cons_of_mem _ hj)) (fun l => (same k t l).trans (ho l))
      (h k (hm k List.mem_cons_self) t ho ht)

theorem State.tryTuning_owner (k : FLane) (s : State) (l : Lane) : (s.tryTuning k).owner l = s.owner l := by
  unfold State.tryTuning
  split
  · split
    · rfl
    · split <;> rfl
  · rfl

theorem State.restartTuner_owner (k : FLane) (s : State) (l : Lane) : (s.restartTuner k).owner l = s.owner l :=
  State.tryTuning_owner ..

section Leg

variable {L : Leg} {P : State → Prop} (C : LegClosed L P) {s : State} (hs : P s)
include C hs

/-! ## Changes (R156) -/

theorem LegClosed.setLegState (st : LegState) : P (setLegState L st s) := by
  unfold Machine.setLegState
  split
  · exact hs
  · exact C.evalTx (C.notice (C.cause _ (C.ctx (by intro _; exact ⟨rfl, rfl, rfl, rfl⟩) hs)))

theorem LegClosed.setLegCause (c : Cause) : P (setLegCause L c s) := by
  unfold Machine.setLegCause
  split
  · exact hs
  · exact C.notice (C.ctx (by intro _; exact ⟨rfl, rfl, rfl, rfl⟩) hs)

theorem LegClosed.setClaim (b : Bool) : P (setClaim L b s) := by
  unfold Machine.setClaim
  split
  · exact hs
  · exact C.notice (C.ctx (by intro _; exact ⟨rfl, rfl, rfl, rfl⟩) hs)

theorem LegClosed.refreshReady : P (s.refreshReady L) := C.evalTx (C.ctx (by intro _; exact ⟨rfl, rfl, rfl, rfl⟩) hs)

/-! ## Tuning (R54, R55) -/

theorem LegClosed.restartTuning : P (restartTuning L s) :=
  C.refreshReady (C.evalTx (forLanes_of_mem _ State.restartTuner_owner
    (fun _ hk _ ho ht =>
      have o := (ho _).trans (s.mem_frontLanes.mp hk)
      C.tune (by exact o) (C.restart o ht)) hs))

/-! ## Entries (8.2 to 8.5) -/

theorem LegClosed.enterUp (b : Bool) : P (enterUp b L s) :=
  C.ctx (by intro _; exact ⟨rfl, rfl, rfl, rfl⟩) (C.setLegCause (C.setLegState hs _) _)

theorem LegClosed.enterReady : P (enterReady L s) := by
  have h : P _ := C.ctx (f := fun c => { c with
    solo := (Machine.setLegState L .ready s).start (Machine.setLegState L .ready s).soloWait })
    (by intro _; exact ⟨rfl, rfl, rfl, rfl⟩) (C.setLegState hs .ready)
  unfold Machine.enterReady
  simp only
  split
  · exact C.enterUp h _
  · exact h

theorem LegClosed.enterMismatch : P (enterMismatch L s) := by
  have h : P _ := C.ctx (f := fun c => { c with
    held := true, solo := none, up := none, dormancy := none, unattended := false })
    (by intro _; exact ⟨rfl, rfl, rfl, rfl⟩) (C.setLegCause (C.setLegState hs .faulted) .planMismatch)
  unfold Machine.enterMismatch
  simp only
  split
  · exact C.origin _ _ _ h
  · exact h

theorem LegClosed.startDormancy : P (startDormancy L s) := by
  unfold Machine.startDormancy
  simp only
  split
  · exact C.ctx (by intro _; exact ⟨rfl, rfl, rfl, rfl⟩) hs
  · exact hs

theorem LegClosed.risingGoesOn : P (risingGoesOn L s) := by
  unfold Machine.risingGoesOn
  simp only
  split
  · exact C.enterMismatch hs
  · split
    · exact C.enterReady hs
    · exact hs

theorem LegClosed.enterRising (retune dorm : Bool) : P (enterRising retune dorm L s) := by
  have h1 := C.setLegState hs .rising
  have h2 : P (if retune = true then Machine.restartTuning L (Machine.setLegState L .rising s)
      else Machine.setLegState L .rising s) := by
    split
    · exact C.restartTuning h1
    · exact h1
  unfold Machine.enterRising
  simp only
  refine C.risingGoesOn ?_
  split
  · exact C.startDormancy h2
  · exact h2

theorem LegClosed.enterFaulted (c : Cause) : P (enterFaulted c L s) :=
  C.ctx (by intro _; exact ⟨rfl, rfl, rfl, rfl⟩) (C.setLegCause (C.setLegState hs _) _)

theorem LegClosed.faultByFall (c : Cause) : P (faultByFall c L s) := C.origin _ _ _ (C.enterFaulted hs _)

theorem LegClosed.handReadiness : P (handReadiness L s) := by
  have h := C.refreshReady hs
  unfold Machine.handReadiness
  simp only
  split
  · split
    · exact C.enterReady h
    · exact h
  · split
    · exact C.enterRising h _ _
    · exact h
  · split
    · exact C.faultByFall h _
    · split
      · exact C.faultByFall h _
      · exact h
  all_goals exact h

/-! ## Segment check (8.7) -/

omit hs in
theorem LegClosed.armCheckers {t : State} (ho : ∀ l, t.owner l = s.owner l) (ht : P t) :
    P (forLanes armChecker (s.cableLanes L) t) :=
  forLanes_of_mem _ (fun _ _ _ => rfl)
    (fun _ hk _ hu hp => C.arm ((hu _).trans ((ho _).trans (s.mem_cableLanes.mp hk))) hp) ht

theorem LegClosed.disarmCheckers : P (disarmCheckers L s) :=
  C.ctx (by intro _; exact ⟨rfl, rfl, rfl, rfl⟩) (forLanes_of_mem _ (fun _ _ _ => rfl)
    (fun _ hk _ ho ht => C.disarm ((ho _).trans (s.mem_cableLanes.mp hk)) ht) hs)

theorem LegClosed.enterCheck (r : CheckRole) (o : Option CheckOutcome) : P (enterCheck r o L s) := by
  have h : P _ := C.ctx (f := fun c => { c with
    role := some r, outcome := o
    solo := none, faultHold := none, up := none, dormancy := none, claimWait := none
    unattended := false, held := false }) (by intro _; exact ⟨rfl, rfl, rfl, rfl⟩) (C.setLegState hs .check)
  unfold Machine.enterCheck
  simp only
  split
  · exact C.armCheckers (fun _ => State.modCtx_owner ..) (C.ctx (by intro _; exact ⟨rfl, rfl, rfl, rfl⟩) h)
  · split
    · exact h
    · exact C.ctx (by intro _; exact ⟨rfl, rfl, rfl, rfl⟩) h

theorem LegClosed.abortCheck : P (abortCheck L s) :=
  C.cause _ (C.ctx (by intro _; exact ⟨rfl, rfl, rfl, rfl⟩) (C.setClaim (C.disarmCheckers hs) _))

theorem LegClosed.farInCheck : P (farInCheck L s) := by
  unfold Machine.farInCheck
  simp only
  split
  · split
    · exact hs
    · exact C.enterRising (C.ctx (by intro _; exact ⟨rfl, rfl, rfl, rfl⟩) hs) _ _
  · split
    · have h : P _ := C.ctx (f := fun c => { c with supervision := none }) (by intro _; exact ⟨rfl, rfl, rfl, rfl⟩) hs
      split
      · exact C.armCheckers (fun _ => State.modCtx_owner ..) (C.ctx (by intro _; exact ⟨rfl, rfl, rfl, rfl⟩) h)
      · exact h
    · split
      · exact C.ctx (by intro _; exact ⟨rfl, rfl, rfl, rfl⟩) hs
      · exact hs

theorem LegClosed.farClaim : P (farClaim L s) := by
  unfold Machine.farClaim
  split
  · split
    · simp only
      exact C.enterCheck (C.cause _ (C.ctx (by intro _; exact ⟨rfl, rfl, rfl, rfl⟩) (C.setClaim hs _))) _ _
    · exact hs
  · exact C.enterCheck hs _ _

theorem LegClosed.farState : P (farState L s) := by
  unfold Machine.farState
  simp only
  split
  · split
    · exact C.enterUp hs _
    · exact C.ctx (by intro _; exact ⟨rfl, rfl, rfl, rfl⟩) hs
  · split
    · exact C.ctx (by intro _; exact ⟨rfl, rfl, rfl, rfl⟩) hs
    · exact C.enterReady hs
  · exact C.ctx (by intro _; exact ⟨rfl, rfl, rfl, rfl⟩) hs
  · exact C.ctx (by intro _; exact ⟨rfl, rfl, rfl, rfl⟩) hs
  · exact hs

theorem LegClosed.readFar (released : Bool) : P (readFar released L s) := by
  unfold Machine.readFar
  simp only
  split
  · exact C.farClaim hs
  split
  · exact C.enterCheck hs _ _
  · exact C.farState hs

theorem LegClosed.handFar (r : FarResult) : P (handFar L r s) := by
  have h : P _ := C.ctx (f := fun c => { c with far := r }) (by intro _; exact ⟨rfl, rfl, rfl, rfl⟩) hs
  unfold Machine.handFar
  simp only
  split
  · exact h
  split
  · exact h
  split
  · split
    · exact h
    split
    · exact C.enterMismatch (C.ctx (by intro _; exact ⟨rfl, rfl, rfl, rfl⟩) h)
    split
    · exact C.enterMismatch (C.abortCheck h)
    · exact C.enterMismatch h
  split
  · exact C.readFar (C.enterRising h _ _) _
  split
  · exact C.farInCheck h
  · exact C.readFar h _

/-! ## Dormancy (8.5) -/

theorem LegClosed.toWaiting : P (((forLanes (fun k (u : State) => u.modTuner k Tuner.toWaiting) (s.frontLanes L) s).evalTx
    L).refreshReady L) :=
  C.refreshReady (C.evalTx (forLanes_of_mem _ (fun _ _ _ => rfl)
    (fun _ hk _ ho ht => C.wait ((ho _).trans (s.mem_frontLanes.mp hk)) ht) hs))

theorem LegClosed.enterDormant : P (enterDormant L s) := by
  have h : P _ := C.ctx (f := fun c => { c with
    solo := none, faultHold := none, up := none, dormancy := none, claimWait := none
    unattended := false, held := false, retry := 0 }) (by intro _; exact ⟨rfl, rfl, rfl, rfl⟩) (C.setLegState hs .dormant)
  unfold Machine.enterDormant
  simp only
  split
  · exact C.toWaiting (C.cause _ (C.ctx (by intro _; exact ⟨rfl, rfl, rfl, rfl⟩) (C.setClaim h _)))
  · exact C.toWaiting h

theorem LegClosed.hushLeg : P (hushLeg L s) := by
  unfold Machine.hushLeg
  simp only
  split
  · exact hs
  · split <;> first | exact C.enterDormant hs | exact hs

theorem LegClosed.wakeLeg : P (wakeLeg L s) := by
  unfold Machine.wakeLeg
  split <;> first | exact C.enterRising hs _ _ | exact hs

theorem LegClosed.presenceChanged (was : Bool) : P (presenceChanged L was s) := by
  unfold Machine.presenceChanged
  simp only
  split
  · exact hs
  split
  · have h : P _ := C.ctx (f := fun c => { c with dormancy := none }) (by intro _; exact ⟨rfl, rfl, rfl, rfl⟩) hs
    split
    · exact C.enterRising (C.sleep _ h) _ _
    split
    · exact C.enterRising (C.ctx (by intro _; exact ⟨rfl, rfl, rfl, rfl⟩) h) _ _
    · exact h
  · exact C.startDormancy hs

theorem LegClosed.strainEvent (x : IntervalNo) : P (strainEvent L x s) := by
  unfold Machine.strainEvent
  split
  · exact hs
  split
  · simp only
    split
    · exact C.origin _ _ _ (C.enterFaulted hs _)
    · exact C.origin _ _ _ (C.enterFaulted hs _)
  · exact C.origin _ _ _ hs

theorem LegClosed.handGrade (g : Grade) : P (handGrade g L s) := by
  unfold Machine.handGrade
  split
  · exact hs
  · exact C.notice (C.cause _ hs)

theorem LegClosed.handClose (x : IntervalNo) (before : Ctx) : P (handClose x before L s) := by
  unfold Machine.handClose
  simp only
  split
  · exact C.strainEvent (C.handGrade hs _) _
  · exact C.handGrade hs _

end Leg

/-! ## The monitor (chapter 4) -/

/-- The cable lane whose merge a front lane feeds belongs to the context of the front lane (R15, R71). -/
theorem State.owner_pairOf {L : Leg} {s : State} {l : Lane} (hl : isFront l = true) (hg : s.gear = true)
    (h : s.owner l = some L) : s.owner (cableLane (pairOf (laneNo l)).1) = some L := by
  have hr : s.straps.role = .leg := by
    simp only [State.gear, Bool.and_eq_true, beq_iff_eq] at hg; exact hg.1
  have hk : (laneNo (cableLane (pairOf (laneNo l)).1)).val = (laneNo l).val / 2 := by
    simp only [laneNo, cableLane, pairOf]; omega
  have hf : isFront (cableLane (pairOf (laneNo l)).1) = false := by
    simp [isFront, cableLane]
  simp only [State.owner, hr, hl, hg, Bool.true_and, if_true, hk, hf, Bool.false_and,
    Bool.false_eq_true, if_false] at h ⊢
  split at h
  · rw [if_pos (by omega)]; exact h
  · cases h

theorem frontLane_laneNo {l : Lane} (h : isFront l = true) : frontLane (laneNo l) = l := by
  apply Fin.ext
  simp only [isFront, decide_eq_true_eq] at h
  simp only [frontLane, laneNo]; omega

theorem cableLane_laneNo {l : Lane} (h : isFront l = false) : cableLane (laneNo l) = l := by
  apply Fin.ext
  simp only [isFront, decide_eq_false_iff_not] at h
  simp only [cableLane, laneNo]; omega

section Lane

variable {L : Leg} {P : State → Prop} (C : LaneClosed L P) {s : State} (hs : P s)
include C hs

theorem LaneClosed.segToSearch (g : Segment) (counted : Bool) :
    P (segToSearch L g counted s) ∧ ∀ l, (segToSearch L g counted s).owner l = s.owner l := by
  unfold Machine.segToSearch
  split
  · have h : P _ := C.seg (g := g) (f := fun x => { x with
      align := .search
      alignLosses := if counted then satInc cap16 x.alignLosses else x.alignLosses
      acc := { x.acc with loss := true } }) (by intro _; exact ⟨rfl, rfl, rfl⟩) hs
    have ho : ∀ l, (State.modSeg L g (fun x => { x with
      align := .search
      alignLosses := if counted then satInc cap16 x.alignLosses else x.alignLosses
      acc := { x.acc with loss := true } }) s).owner l = s.owner l := fun _ => State.modCtx_owner ..
    revert h ho
    generalize State.modSeg L g _ s = t
    intro h ho
    by_cases hg : g = .cableIn ∧ t.gear
    · simp only [hg, and_self, if_true]
      refine ⟨forLanes_of_mem _ (fun _ _ _ => rfl)
        (fun _ hk _ hu hp => C.split ((hu _).trans (t.mem_cableLanes.mp hk)) hp) h, fun l => ?_⟩
      rw [← ho l]
      exact forLanes_keeps (P := fun u => u.owner l = t.owner l) (fun k u hu => (State.modSplit_owner u k _ l).trans hu) _ rfl
    · simp only [hg, if_false]
      exact ⟨h, ho⟩
  · exact ⟨hs, fun _ => rfl⟩

theorem LaneClosed.goodMarkerOnSegment (g : Segment) :
    P (goodMarkerOnSegment L g s) ∧ ∀ l, (goodMarkerOnSegment L g s).owner l = s.owner l := by
  unfold Machine.goodMarkerOnSegment
  split
  · exact ⟨hs, fun _ => rfl⟩
  · rename_i v _
    have h : P _ := C.seg (g := g) (f := fun x => { x with skew := some v }) (by intro _; exact ⟨rfl, rfl, rfl⟩) hs
    simp only
    split
    · exact ⟨C.seg (by intro _; exact ⟨rfl, rfl, rfl⟩) h,
        fun _ => (State.modCtx_owner ..).trans (State.modCtx_owner ..)⟩
    · obtain ⟨h2, o2⟩ := C.segToSearch h g true
      refine ⟨C.seg (fun x => ?_) h2, fun l =>
        (State.modCtx_owner ..).trans ((o2 l).trans (State.modCtx_owner ..))⟩
      unfold Seg.setSkewFlag
      split <;> exact ⟨rfl, rfl, rfl⟩

theorem LaneClosed.laneToHunt {l : Lane} (counted : Bool) (h : s.owner l = some L) :
    P (laneToHunt l counted s) := by
  unfold Machine.laneToHunt
  have a : P _ := C.lane (l := l) (f := fun u => { u with
    lock := .hunt, badRun := 0
    markerLosses := if (s.lane l).lock = .inLock ∧ counted then satInc cap16 u.markerLosses else u.markerLosses })
    h (fun _ => rfl) hs
  by_cases hw : (s.lane l).lock = .inLock
  · simp only [hw, true_and, if_true, State.modLane_owner, h]
    simp only [hw, true_and] at a
    obtain ⟨b, o⟩ := C.segToSearch a (segmentOf l) counted
    have h' := (o l).trans h
    revert b h'
    generalize Machine.segToSearch L (segmentOf l) counted _ = t
    intro b h'
    have c : P _ := C.seg (g := segmentOf l) (f := fun x => { x with skew := none, skewFlag := false })
      (by intro _; exact ⟨rfl, rfl, rfl⟩) b
    have h'' : (t.modSeg L (segmentOf l) fun x => { x with skew := none, skewFlag := false }).owner l = some L :=
      (State.modCtx_owner ..).trans h'
    revert c h''
    generalize State.modSeg L (segmentOf l) _ t = u
    intro c h''
    split
    · rename_i hg
      exact C.merge (State.owner_pairOf hg.1 hg.2 h'') c
    · exact c
  · simp only [hw, false_and, if_false] at a ⊢
    exact a

theorem LaneClosed.onPaths {l : Lane} (f : Merge → Merge) (g : Split → Split) (h : s.owner l = some L) :
    P (if !s.gear then s
      else if isFront l then s.modMerge (pairOf (laneNo l)).1 f else s.modSplit (laneNo l) g) := by
  split
  · exact hs
  · rename_i hg
    split
    · rename_i hf
      exact C.merge (State.owner_pairOf hf (by simpa using hg) h) hs
    · rename_i hf
      exact C.split (by rw [cableLane_laneNo (by simpa using hf)]; exact h) hs

theorem LaneClosed.goodMarkerOnPaths {l : Lane} (arrival : Nat) (counts was : Bool) (h : s.owner l = some L) :
    P (goodMarkerOnPaths L l arrival counts was s) := C.onPaths hs _ _ h

theorem LaneClosed.badMarkerOnPaths {l : Lane} (h : s.owner l = some L) : P (badMarkerOnPaths l s) :=
  C.onPaths hs _ _ h

theorem LaneClosed.goodMarker {l : Lane} (arrival : Nat) (h : s.owner l = some L) : P (goodMarker L l arrival s) := by
  have a : P _ := C.lane (l := l) (f := fun u => { u with lock := .inLock, badRun := 0, pos := s.markerPos l arrival }) h
    (fun _ => rfl) hs
  obtain ⟨b, o⟩ := C.goodMarkerOnSegment a (segmentOf l)
  exact C.goodMarkerOnPaths b _ _ _ ((o l).trans h)

theorem LaneClosed.badMarker {l : Lane} (h : s.owner l = some L) : P (badMarker l s) := by
  unfold Machine.badMarker
  simp only
  split
  · exact C.badMarkerOnPaths (C.lane h (by intro _; rfl) hs) h
  · exact C.laneToHunt hs _ h

theorem LaneClosed.receiverLeftLocked {l : Lane} (counted : Bool) (h : s.owner l = some L) :
    P (receiverLeftLocked l counted s) := by
  unfold Machine.receiverLeftLocked
  simp only
  split
  · rename_i hf
    exact C.laneToHunt (C.lost (by rw [frontLane_laneNo hf]; exact h) hs) _ h
  · rename_i hf
    exact C.laneToHunt (C.pin (by rw [cableLane_laneNo (by simpa using hf)]; exact h) hs) _ h

theorem LaneClosed.laneChanged {l : Lane} (h : s.owner l = some L) : P (laneChanged l s) := by
  unfold Machine.laneChanged
  rw [h]
  exact C.handReadiness (C.evalTx hs)

end Lane

/-! ## The frame is closed -/

theorem LegFrame.closed (L : Leg) (s : State) : LaneClosed L (LegFrame L s) where
  evalTx h := h.trans (.evalTx _)
  ctx _ h := h.trans (.modCtx _ _)
  tune ho h := h.trans (by
    unfold State.tryTuning
    split
    · rw [ho]
      simp only
      split
      · exact .refl L _
      · exact .modTuner _ _ ho
    · exact .refl L _)
  restart ho h := h.trans (.modTuner _ _ ho)
  wait ho h := h.trans (.modTuner _ _ ho)
  arm ho h := h.trans (by unfold armChecker; exact .modChecker _ _ ho)
  disarm ho h := h.trans (.modChecker _ _ ho)
  cause _ h := h.trans (.setCause _ _)
  notice h := h.trans (.changeNotice _)
  sleep _ h := h.trans (.queueSleep _ _ _)
  origin _ _ _ h := h.trans (.originate _ ..)
  lane ho _ h := h.trans (.modLane _ _ ho)
  seg _ h := h.trans (.modSeg _ _ _)
  split ho h := h.trans (.modSplit _ _ ho)
  merge ho h := h.trans (.modMerge _ _ ho)
  lost ho h := h.trans (.modTuner _ _ ho)
  pin ho h := h.trans (.modChecker _ _ ho)

end Sys2Proof.Machine
end

