-- ==== Sys2Proof/Laws/Line.lean ====
section
/-! SUPPORT. What a receiver does with a message and with single bits, said once (R101, R102, R105, R106, R115), and what the
bits of a message as it is sent give back to the reader of bits. -/

namespace Sys2Proof.Machine

variable {s : State}

/-! ## Who reads -/

/-- `hears` in the words of the statements. -/
theorem State.hears_iff (s : State) :
    s.hears = true ↔ s.phase = .running ∧ s.line.attempt = none ∧ s.line.abortMark = none := by
  simp only [State.hears, Bool.and_eq_true, beq_iff_eq, Option.isNone_iff_eq_none, and_assoc]

/-- `takes` is `Reads`. -/
theorem State.takes_iff_reads (wire : List Bool) (s : State) : s.takes wire = true ↔ Reads wire s := by
  have hi : (if s.line.underWay then s.line.heard.isPrefixOf wire else decide (idleBits ≤ s.line.idleRun)) = true ↔
      if s.line.underWay then s.line.heard <+: wire else 8 ≤ s.line.idleRun := by
    cases s.line.underWay
    · exact decide_eq_true_iff
    · exact List.isPrefixOf_iff_prefix
  simp only [State.takes, Bool.and_eq_true, bne_iff_ne, State.hears_iff, Reads, hi]
  tauto

/-- A station that reads drives nothing. -/
theorem Reads.hears {wire : List Bool} (h : Reads wire s) : s.hears = true := s.hears_iff.mpr ⟨h.1, h.2.2.1, h.2.2.2.1⟩

/-! ## Whole messages -/

theorem State.messageStart_eq_markAt (s : State) : s.messageStart = s.markAt := rfl

/-- A message read to its end and counted is what `counted` says. -/
theorem completed_readMessage (len : Nat) (s : State) : completed (readMessage len s) = s.counted len := rfl

/-- A body is free of format errors exactly where a block takes it. -/
theorem bodyWellFormed_eq (k : MsgKind) (st : Station) (body : List Byte) :
    bodyWellFormed k st.val body = (handOn k body).isSome := by
  have h : decide (st.val ≤ 8) = true := by simpa using Nat.lt_succ_iff.mp st.isLt
  cases k <;> simp [bodyWellFormed, handOn, h]

theorem completeMessage_of_some {k : MsgKind} {body : List Byte} {hand : Station → State → State} (st : Station)
    (h : handOn k body = some hand) (s : State) :
    completeMessage k st.val body s = hand st (noteClash st (completed s)) := by
  have hs : stationOfCode st.val = some st := dif_pos (by omega)
  simp only [completeMessage, hs, h]

section Receive

variable {k : MsgKind} {priority : Fin 4} {body : List Byte}

/-- A well-formed message at a station that reads it is counted, judged for a clash and handed on. -/
theorem receive_of_reads (st : Station) {hand : Station → State → State} (hr : Reads (wireOf priority.val st.val k body) s)
    (h : handOn k body = some hand) :
    receive k priority st.val body s = hand st (noteClash st (s.counted body.length)) := by
  have hw : bodyWellFormed k st.val body = true := by rw [bodyWellFormed_eq, h]; rfl
  simp only [receive, (State.takes_iff_reads _ s).mpr hr, hw, if_true, completeMessage_of_some st h, completed_readMessage]

/-- A message with a format error at a station that reads it is read as the bits that have not come yet. -/
theorem receive_of_faulty {sender : Nat} (hr : Reads (wireOf priority.val sender k body) s)
    (h : bodyWellFormed k sender body = false) :
    receive k priority sender body s =
      s.hear (if s.line.underWay then (wireOf priority.val sender k body).drop s.line.heard.length
        else wireOf priority.val sender k body) := by
  simp [receive, (State.takes_iff_reads _ s).mpr hr, h]

/-- A message that the station does not read as a message is read as its bits. -/
theorem receive_of_not_reads {sender : Nat} (hr : ¬ Reads (wireOf priority.val sender k body) s) :
    receive k priority sender body s = s.hear (wireOf priority.val sender k body) :=
  if_neg fun hl => hr ((State.takes_iff_reads _ s).mp hl)

end Receive

/-! ## Single bits -/

@[simp] theorem State.hear_nil (s : State) : s.hear [] = s := rfl
@[simp] theorem State.hear_cons (b : Bool) (bs : List Bool) (s : State) : s.hear (b :: bs) = (s.hearBit b).hear bs := rfl

theorem State.hear_append (bs cs : List Bool) (s : State) : s.hear (bs ++ cs) = (s.hear bs).hear cs := List.foldl_append

theorem State.hearBit_of_not_hears (b : Bool) (h : s.hears = false) : s.hearBit b = s := by simp [State.hearBit, h]

theorem State.hear_of_not_hears (bs : List Bool) (h : s.hears = false) : s.hear bs = s := by
  induction bs with
  | nil => rfl
  | cons b bs ih => rw [hear_cons, hearBit_of_not_hears b h, ih]

/-- While a message is under way a bit changes the two runs and joins the bits read. -/
theorem Line.hearBit_underWay (t : Nat) (b : Bool) (l : Line) (h : l.underWay = true) :
    l.hearBit t b =
      if b then { l with heard := l.heard ++ [b], domRun := 0 }
      else { l with heard := l.heard ++ [b], idleRun := 0, domRun := satInc 255 l.domRun } := by
  cases b <;> simp [Line.hearBit, h]

/-- A recessive bit outside a message changes the two runs alone (R101, R115). -/
theorem Line.hearBit_recessive (t : Nat) (l : Line) (h : l.underWay = false) :
    l.hearBit t true = { l with domRun := 0, idleRun := satInc 255 l.idleRun } := by
  simp [Line.hearBit, h]

/-- A dominant bit outside a message, on a line that is not idle, changes the two runs alone (R101, R115). -/
theorem Line.hearBit_dominant (t : Nat) (l : Line) (h : l.underWay = false) (hi : l.mode = .stuck ∨ l.idleRun < 8) :
    l.hearBit t false = { l with idleRun := 0, domRun := satInc 255 l.domRun } := by
  have hb : (l.mode != .stuck && decide (idleBits ≤ l.idleRun)) = false := by
    rcases hi with hi | hi
    · simp [hi]
    · have : ¬ idleBits ≤ l.idleRun := by unfold idleBits; omega
      simp [this]
  simp only [Bool.and_eq_false_iff, bne_eq_false_iff_eq, decide_eq_false_iff_not] at hb
  simp [Line.hearBit, h]
  tauto

/-- A dominant bit on an idle line is a start mark (R101). -/
theorem Line.hearBit_start (t : Nat) (l : Line) (h : l.underWay = false) (hm : l.mode ≠ .stuck) (hi : 8 ≤ l.idleRun) :
    l.hearBit t false =
      { l with idleRun := 0, domRun := satInc 255 l.domRun, underWay := true, startMark := some t, heard := [false] } := by
  simp [Line.hearBit, h, hm, idleBits, hi]

/-! ## The bits of a message give its content back (R102, R103) -/

/-- Reading past the separators undoes putting them in; `t` are the bits after. -/
theorem contentOf_separate (c t : List Bool) : ∀ n : Nat, n < 8 →
    contentOf n (separate n c ++ t) = c ++ contentOf ((n + c.length) % 8) t := by
  induction c with
  | nil => intro n h; simp [separate, Nat.mod_eq_of_lt h]
  | cons b c ih =>
    intro n h
    by_cases h7 : n = 7
    · subst h7
      have := ih 0 (by omega)
      simp only [separate, if_true, List.cons_append, contentOf, List.length_cons]
      norm_num
      rw [this]
      congr 2
      omega
    · have := ih (n + 1) (by omega)
      have h8 : n ≠ 8 := by omega
      simp only [separate, h7, if_false, List.cons_append, contentOf, h8, this, List.length_cons]
      congr 3
      omega

/-- The separators of a message are recessive. -/
theorem separatorsRecessive_separate (c t : List Bool) : ∀ n : Nat, n < 8 →
    separatorsRecessive n (separate n c ++ t) = separatorsRecessive ((n + c.length) % 8) t := by
  induction c with
  | nil => intro n h; simp [separate, Nat.mod_eq_of_lt h]
  | cons b c ih =>
    intro n h
    by_cases h7 : n = 7
    · subst h7
      have := ih 0 (by omega)
      simp only [separate, if_true, List.cons_append, separatorsRecessive, List.length_cons]
      norm_num
      rw [this]
      congr 1
      omega
    · have := ih (n + 1) (by omega)
      have h8 : n ≠ 8 := by omega
      simp only [separate, h7, if_false, List.cons_append, separatorsRecessive, h8, this, List.length_cons]
      congr 1
      omega

/-- The content bits of the first bits of a message are its first content bits. -/
theorem contentOf_append_prefix (a b : List Bool) : ∀ n : Nat, contentOf n a <+: contentOf n (a ++ b) := by
  induction a with
  | nil => intro n; exact List.nil_prefix
  | cons x a ih =>
    intro n
    simp only [List.cons_append, contentOf]
    split
    · exact ih 0
    · exact (List.prefix_cons_inj x).mpr (ih (n + 1))

@[simp] theorem natBits_length (w v : Nat) : (natBits w v).length = w := by
  induction w with
  | zero => rfl
  | succ w ih => simp [natBits, ih]

/-- Bits spell the number they were written from. -/
theorem bitsNat_natBits (w v : Nat) : bitsNat (natBits w v) = v % 2 ^ w := by
  suffices h : ∀ a : Nat, (natBits w v).foldl (fun n b => 2 * n + b.toNat) a = a * 2 ^ w + v % 2 ^ w by
    simpa [bitsNat] using h 0
  induction w with
  | zero => intro a; simp [natBits, Nat.mod_one]
  | succ w ih =>
    intro a
    simp only [natBits, List.foldl_cons, ih]
    rw [Nat.mod_pow_succ, Nat.pow_succ, Nat.testBit_eq_decide_div_mod_eq]
    rcases Nat.mod_two_eq_zero_or_one (v / 2 ^ w) with h | h <;> simp [h] <;> ring

/-- Another station than this is no clash. -/
theorem noteClash_of_ne {st : Station} (h : st ≠ s.station) : noteClash st s = s := if_neg h

end Sys2Proof.Machine
end

