-- ==== Sys2Proof/WellFormed.lean ====
section
/-! DEFINITION. Which operands the spec lets a command have. -/

namespace Sys2Proof

/-- A leg a context can have. -/
def legNamed (L : Leg) : Bool := 1 ≤ L.val

/-- Operands within the ranges of the spec.  A message received is one free of format errors (R105); what the port
answers as malformed or unknown is not a request of R196 (R195). -/
def Instr.wf : Instr → Bool
  | .imageLoadEnd (some bytes) _ => bytes.length == 110
  | .codewordClassified L _ _ => legNamed L
  | .attemptStart run => run ≤ 255
  | .beaconReceived sender body _ => Machine.bodyWellFormed .beacon sender body
  | .alertReceived sender body _ => Machine.bodyWellFormed .alert sender body
  | .hushReceived sender body _ => Machine.bodyWellFormed .hush sender body
  | .wakeReceived sender body _ => Machine.bodyWellFormed .wake sender body
  | .fetchReceived sender body _ => Machine.bodyWellFormed .fetch sender body
  | .parcelReceived sender body _ => Machine.bodyWellFormed .parcel sender body
  | .soloTimerExpiry L => legNamed L
  | .faultHoldExpiry L => legNamed L
  | .upTimerExpiry L => legNamed L
  | .dormancyTimerExpiry L => legNamed L
  | .claimWaitExpiry L => legNamed L
  | .checkTimerExpiry L => legNamed L
  | .supervisionTimerExpiry L => legNamed L
  | .checkReleaseTimerExpiry L => legNamed L
  | .unknownRequest bytes =>
    match Machine.parseWrite bytes with
    | .request _ => false
    | _ => true
  | .imageLoadEnd none _ | .markerFound _ _ _ _ | .markerCheck _ _ => true
  | .powerOn | .endOfReset _ | .signalDetectChange _ _ | .presentFlagSet _ | .seekRunEnd _ | .signalAbsent _ => true
  | .clockLock _ | .acquireTimeout _ | .adaptationComplete _ | .adaptTimeout _ | .clockLockLost _ => true
  | .tapWish _ _ _ | .settled _ | .tuningFrameReceived _ _ _ | .tuningFrameSent _ | .answerTimerExpiry _ => true
  | .tuningReleaseTimerExpiry _ | .tuningTimeout _ | .failureWaitEnd _ | .txModeChangeAtMarker _ => true
  | .intervalClose | .firstBeacon | .arbitrationLost | .attemptAbort _ | .abortMarkEnd | .attemptEnd _ => true
  | .messageDiscarded _ | .quietTimerExpiry | .stuckEntry | .stuckExit | .beaconTimerExpiry => true
  | .spacingTimerExpiry | .entryStale _ | .entryRemoved _ | .collectAnswerTimeout => true
  | .readStation | .readLeg _ | .readLane _ | .readRoster _ | .readRecord _ _ | .readCapture _ _ => true
  | .readCollection _ | .readAttention | .restartLeg _ | .checkSegment _ | .clearCaptures | .trigger _ => true
  | .collect _ _ _ _ | .setEnables _ | .forceCause _ | .locate _ | .throttleExpiry | .locateBlink => true
  | .patternCheckerSymbol _ _ => true

end Sys2Proof
end

