-- ==== Sys2Proof/Laws/PerInstr.lean ====
section
/-! SUPPORT. The per-command family WellFormedSays: what the well-formedness check of a command says of its operands, in
the words of the rules, one lemma for each constructor. -/

namespace Sys2Proof.Laws.WellFormedSays

/-- The ranges of the spec for a command's operands. -/
def Ranges : Instr → Prop
  | .imageLoadEnd mem _ => ∀ bytes : List Byte, mem = some bytes → bytes.length = 110
  | .codewordClassified L _ _ => 1 ≤ L.val
  | .attemptStart run => run ≤ 255
  | .beaconReceived sender body _ => sender ≤ 8 ∧ ∃ b : Machine.BeaconBody, Machine.decodeBeacon body = some b
  | .alertReceived sender body _ => sender ≤ 8 ∧ ∃ a : Machine.AlertBody, Machine.decodeAlert body = some a
  | .hushReceived sender body _ => sender ≤ 8 ∧ ∃ L : Leg, Machine.decodeSleep body = some L
  | .wakeReceived sender body _ => sender ≤ 8 ∧ ∃ L : Leg, Machine.decodeSleep body = some L
  | .fetchReceived sender body _ => sender ≤ 8 ∧ ∃ f : Machine.Fetch, Machine.decodeFetch body = some f
  | .parcelReceived sender body _ => sender ≤ 8 ∧ ∃ p : Machine.ParcelBody, Machine.decodeParcel body = some p
  | .soloTimerExpiry L => 1 ≤ L.val
  | .faultHoldExpiry L => 1 ≤ L.val
  | .upTimerExpiry L => 1 ≤ L.val
  | .dormancyTimerExpiry L => 1 ≤ L.val
  | .claimWaitExpiry L => 1 ≤ L.val
  | .checkTimerExpiry L => 1 ≤ L.val
  | .supervisionTimerExpiry L => 1 ≤ L.val
  | .checkReleaseTimerExpiry L => 1 ≤ L.val
  | .unknownRequest bytes => ∀ r : Machine.Request, Machine.parseWrite bytes ≠ .request r
  | _ => True

/-- The check holds exactly of the commands whose operands are in range. -/
def Statement (i : Instr) : Prop := i.wf = true ↔ Ranges i

theorem receivedRanges {α : Type} (sender : Nat) (o : Option α) :
    (decide (sender ≤ 8) && o.isSome) = true ↔ sender ≤ 8 ∧ ∃ x : α, o = some x := by
  simp [Option.isSome_iff_exists]

theorem powerOn : Statement .powerOn := ⟨fun _ => trivial, fun _ => rfl⟩
theorem endOfReset (straps : Straps) : Statement (.endOfReset straps) := ⟨fun _ => trivial, fun _ => rfl⟩
theorem imageLoadEnd (mem : Option (List Byte)) (signals : BitVec 16) : Statement (.imageLoadEnd mem signals) := by
  cases mem with
  | none => exact ⟨fun _ _ h => (by cases h), fun _ => rfl⟩
  | some bytes =>
    change (bytes.length == 110) = true ↔ ∀ b : List Byte, some bytes = some b → b.length = 110
    simp
theorem signalDetectChange (lane : Lane) (present : Bool) : Statement (.signalDetectChange lane present) :=
  ⟨fun _ => trivial, fun _ => rfl⟩
theorem presentFlagSet (lane : Lane) : Statement (.presentFlagSet lane) := ⟨fun _ => trivial, fun _ => rfl⟩
theorem seekRunEnd (lane : Lane) : Statement (.seekRunEnd lane) := ⟨fun _ => trivial, fun _ => rfl⟩
theorem signalAbsent (lane : Lane) : Statement (.signalAbsent lane) := ⟨fun _ => trivial, fun _ => rfl⟩
theorem clockLock (lane : Lane) : Statement (.clockLock lane) := ⟨fun _ => trivial, fun _ => rfl⟩
theorem acquireTimeout (lane : Lane) : Statement (.acquireTimeout lane) := ⟨fun _ => trivial, fun _ => rfl⟩
theorem adaptationComplete (lane : Lane) : Statement (.adaptationComplete lane) := ⟨fun _ => trivial, fun _ => rfl⟩
theorem adaptTimeout (lane : Lane) : Statement (.adaptTimeout lane) := ⟨fun _ => trivial, fun _ => rfl⟩
theorem clockLockLost (lane : Lane) : Statement (.clockLockLost lane) := ⟨fun _ => trivial, fun _ => rfl⟩
theorem tapWish (lane : FLane) (tap : Tap) (dir : TapDir) : Statement (.tapWish lane tap dir) :=
  ⟨fun _ => trivial, fun _ => rfl⟩
theorem settled (lane : FLane) : Statement (.settled lane) := ⟨fun _ => trivial, fun _ => rfl⟩
theorem tuningFrameReceived (lane : FLane) (frame : TuningFrame) (checkHolds : Bool) :
    Statement (.tuningFrameReceived lane frame checkHolds) :=
  ⟨fun _ => trivial, fun _ => rfl⟩
theorem tuningFrameSent (lane : FLane) : Statement (.tuningFrameSent lane) := ⟨fun _ => trivial, fun _ => rfl⟩
theorem answerTimerExpiry (lane : FLane) : Statement (.answerTimerExpiry lane) := ⟨fun _ => trivial, fun _ => rfl⟩
theorem tuningReleaseTimerExpiry (lane : FLane) : Statement (.tuningReleaseTimerExpiry lane) :=
  ⟨fun _ => trivial, fun _ => rfl⟩
theorem tuningTimeout (lane : FLane) : Statement (.tuningTimeout lane) := ⟨fun _ => trivial, fun _ => rfl⟩
theorem failureWaitEnd (lane : FLane) : Statement (.failureWaitEnd lane) := ⟨fun _ => trivial, fun _ => rfl⟩
theorem txModeChangeAtMarker (lane : Lane) : Statement (.txModeChangeAtMarker lane) :=
  ⟨fun _ => trivial, fun _ => rfl⟩
theorem markerFound (lane : Lane) (index : Fin 16) (arrival : Nat) (swapped : Bool) :
    Statement (.markerFound lane index arrival swapped) :=
  ⟨fun _ => trivial, fun _ => rfl⟩
theorem markerCheck (lane : Lane) (reading : MarkerRead) : Statement (.markerCheck lane reading) :=
  ⟨fun _ => trivial, fun _ => rfl⟩
theorem codewordClassified (leg : Leg) (seg : Segment) (cls : CodewordClass) :
    Statement (.codewordClassified leg seg cls) :=
  decide_eq_true_iff
theorem intervalClose : Statement .intervalClose := ⟨fun _ => trivial, fun _ => rfl⟩
theorem firstBeacon : Statement .firstBeacon := ⟨fun _ => trivial, fun _ => rfl⟩
theorem attemptStart (idleRun : Nat) : Statement (.attemptStart idleRun) := decide_eq_true_iff
theorem arbitrationLost : Statement .arbitrationLost := ⟨fun _ => trivial, fun _ => rfl⟩
theorem attemptAbort (backoff : Fin 16) : Statement (.attemptAbort backoff) := ⟨fun _ => trivial, fun _ => rfl⟩
theorem abortMarkEnd : Statement .abortMarkEnd := ⟨fun _ => trivial, fun _ => rfl⟩
theorem attemptEnd (mark : EndMark) : Statement (.attemptEnd mark) := ⟨fun _ => trivial, fun _ => rfl⟩
theorem messageDiscarded (levels : List Bool) : Statement (.messageDiscarded levels) := ⟨fun _ => trivial, fun _ => rfl⟩
theorem beaconReceived (sender : Nat) (body : List Byte) (priority : Fin 4) :
    Statement (.beaconReceived sender body priority) :=
  receivedRanges sender (Machine.decodeBeacon body)
theorem alertReceived (sender : Nat) (body : List Byte) (priority : Fin 4) :
    Statement (.alertReceived sender body priority) :=
  receivedRanges sender (Machine.decodeAlert body)
theorem hushReceived (sender : Nat) (body : List Byte) (priority : Fin 4) :
    Statement (.hushReceived sender body priority) :=
  receivedRanges sender (Machine.decodeSleep body)
theorem wakeReceived (sender : Nat) (body : List Byte) (priority : Fin 4) :
    Statement (.wakeReceived sender body priority) :=
  receivedRanges sender (Machine.decodeSleep body)
theorem fetchReceived (sender : Nat) (body : List Byte) (priority : Fin 4) :
    Statement (.fetchReceived sender body priority) :=
  receivedRanges sender (Machine.decodeFetch body)
theorem parcelReceived (sender : Nat) (body : List Byte) (priority : Fin 4) :
    Statement (.parcelReceived sender body priority) :=
  receivedRanges sender (Machine.decodeParcel body)
theorem quietTimerExpiry : Statement .quietTimerExpiry := ⟨fun _ => trivial, fun _ => rfl⟩
theorem stuckEntry : Statement .stuckEntry := ⟨fun _ => trivial, fun _ => rfl⟩
theorem stuckExit : Statement .stuckExit := ⟨fun _ => trivial, fun _ => rfl⟩
theorem beaconTimerExpiry : Statement .beaconTimerExpiry := ⟨fun _ => trivial, fun _ => rfl⟩
theorem spacingTimerExpiry : Statement .spacingTimerExpiry := ⟨fun _ => trivial, fun _ => rfl⟩
theorem entryStale (station : Station) : Statement (.entryStale station) := ⟨fun _ => trivial, fun _ => rfl⟩
theorem entryRemoved (station : Station) : Statement (.entryRemoved station) := ⟨fun _ => trivial, fun _ => rfl⟩
theorem soloTimerExpiry (leg : Leg) : Statement (.soloTimerExpiry leg) := decide_eq_true_iff
theorem faultHoldExpiry (leg : Leg) : Statement (.faultHoldExpiry leg) := decide_eq_true_iff
theorem upTimerExpiry (leg : Leg) : Statement (.upTimerExpiry leg) := decide_eq_true_iff
theorem dormancyTimerExpiry (leg : Leg) : Statement (.dormancyTimerExpiry leg) := decide_eq_true_iff
theorem claimWaitExpiry (leg : Leg) : Statement (.claimWaitExpiry leg) := decide_eq_true_iff
theorem checkTimerExpiry (leg : Leg) : Statement (.checkTimerExpiry leg) := decide_eq_true_iff
theorem supervisionTimerExpiry (leg : Leg) : Statement (.supervisionTimerExpiry leg) := decide_eq_true_iff
theorem checkReleaseTimerExpiry (leg : Leg) : Statement (.checkReleaseTimerExpiry leg) := decide_eq_true_iff
theorem collectAnswerTimeout : Statement .collectAnswerTimeout := ⟨fun _ => trivial, fun _ => rfl⟩
theorem readStation : Statement .readStation := ⟨fun _ => trivial, fun _ => rfl⟩
theorem readLeg (leg : Byte) : Statement (.readLeg leg) := ⟨fun _ => trivial, fun _ => rfl⟩
theorem readLane (lane : Byte) : Statement (.readLane lane) := ⟨fun _ => trivial, fun _ => rfl⟩
theorem readRoster (index : Byte) : Statement (.readRoster index) := ⟨fun _ => trivial, fun _ => rfl⟩
theorem readRecord (leg age : Byte) : Statement (.readRecord leg age) := ⟨fun _ => trivial, fun _ => rfl⟩
theorem readCapture (slot record : Byte) : Statement (.readCapture slot record) := ⟨fun _ => trivial, fun _ => rfl⟩
theorem readCollection (index : Byte) : Statement (.readCollection index) := ⟨fun _ => trivial, fun _ => rfl⟩
theorem readAttention : Statement .readAttention := ⟨fun _ => trivial, fun _ => rfl⟩
theorem restartLeg (leg : Byte) : Statement (.restartLeg leg) := ⟨fun _ => trivial, fun _ => rfl⟩
theorem checkSegment (leg : Byte) : Statement (.checkSegment leg) := ⟨fun _ => trivial, fun _ => rfl⟩
theorem clearCaptures : Statement .clearCaptures := ⟨fun _ => trivial, fun _ => rfl⟩
theorem trigger (leg : Byte) : Statement (.trigger leg) := ⟨fun _ => trivial, fun _ => rfl⟩
theorem collect (target trig leg criterion : Byte) : Statement (.collect target trig leg criterion) :=
  ⟨fun _ => trivial, fun _ => rfl⟩
theorem setEnables (set : BitVec 16) : Statement (.setEnables set) := ⟨fun _ => trivial, fun _ => rfl⟩
theorem forceCause (set : BitVec 16) : Statement (.forceCause set) := ⟨fun _ => trivial, fun _ => rfl⟩
theorem locate (on : Byte) : Statement (.locate on) := ⟨fun _ => trivial, fun _ => rfl⟩
theorem unknownRequest (bytes : List Byte) : Statement (.unknownRequest bytes) := by
  change (match Machine.parseWrite bytes with
    | .request _ => false
    | _ => true) = true ↔ ∀ r : Machine.Request, Machine.parseWrite bytes ≠ .request r
  cases Machine.parseWrite bytes <;> simp
theorem throttleExpiry : Statement .throttleExpiry := ⟨fun _ => trivial, fun _ => rfl⟩
theorem locateBlink : Statement .locateBlink := ⟨fun _ => trivial, fun _ => rfl⟩
theorem patternCheckerSymbol (lane : CLane) (level : Level) : Statement (.patternCheckerSymbol lane level) :=
  ⟨fun _ => trivial, fun _ => rfl⟩

end Sys2Proof.Laws.WellFormedSays
end

