-- ==== Sys2Proof/Laws/Tuning.lean ====
section
/-! SUPPORT. The tuning engine's reports to its receiver (R58): what `Tuner.tell` leaves, and that no operation of the engine
takes a report back. -/

namespace Sys2Proof.Machine

variable {t : Tuner}

@[simp] theorem Tuner.tell_reports (r : WishReport) : (t.tell r).reports = t.reports ++ [r] := rfl
@[simp] theorem Tuner.tell_st (r : WishReport) : (t.tell r).st = t.st := rfl
@[simp] theorem Tuner.tell_req (r : WishReport) : (t.tell r).req = t.req := rfl
@[simp] theorem Tuner.tell_wish (r : WishReport) : (t.tell r).wish = t.wish := rfl
@[simp] theorem Tuner.tell_settled (r : WishReport) : (t.tell r).settled = t.settled := rfl
@[simp] theorem Tuner.tell_taps (r : WishReport) : (t.tell r).taps = t.taps := rfl
@[simp] theorem Tuner.tell_partnerReady (r : WishReport) : (t.tell r).partnerReady = t.partnerReady := rfl
@[simp] theorem Tuner.tell_answerTimer (r : WishReport) : (t.tell r).answerTimer = t.answerTimer := rfl
@[simp] theorem Tuner.tell_releaseTimer (r : WishReport) : (t.tell r).releaseTimer = t.releaseTimer := rfl

/-- A request that ends as answered is reported with its answer. -/
theorem Tuner.endAnswered_eq {r : OutRequest} (h : t.req = some r) :
    t.endAnswered = { t with
      req := none, answerTimer := none, releaseTimer := none, reports := t.reports ++ [.answered r.answer] } := by
  unfold Tuner.endAnswered
  rw [h]
  rfl

/-- A request that is dropped is reported abandoned; without one only the timers stop. -/
theorem Tuner.dropRequest_eq : t.dropRequest = { t with
    req := none, answerTimer := none, releaseTimer := none
    reports := t.reports ++ if t.req = none then [] else [.abandoned] } := by
  unfold Tuner.dropRequest
  cases h : t.req <;> simp [Tuner.tell]

/-- Without a wish there is nothing to take. -/
theorem Tuner.takeWish_none (now : Nat) (h : t.wish = none) : t.takeWish now = t := by
  unfold Tuner.takeWish
  rw [h]

theorem Tuner.takeWish_reports (now : Nat) : t.reports <+: (t.takeWish now).reports := by
  unfold Tuner.takeWish
  repeat' split
  all_goals first | (simp; done) | (dsimp only; split_ifs <;> simp)

theorem Tuner.tryClose_reports (b : Bool) : (t.tryClose b).reports = t.reports := by
  unfold Tuner.tryClose
  split <;> rfl

theorem Tuner.proceed_reports (now : Nat) (b : Bool) : t.reports <+: (t.proceed now b).reports := by
  rw [← Tuner.tryClose_reports b]
  exact Tuner.takeWish_reports now

end Sys2Proof.Machine
end

