-- ==== Sys2Proof/Safety.lean ====
section
/-! DEFINITION. What counts as a safe step of the block: it answers a next state. -/

namespace Sys2Proof

/-- An outcome that is a next state. -/
def goesOn (o : Host.Outcome Machine.State Machine.Fault Machine.Refusal) : Prop := ∃ t, o = .next t

/-- A state whose next step neither faults nor is refused. -/
def Safe (s : Machine.State) : Prop := goesOn (Machine.step s)

end Sys2Proof
end

