-- ==== Sys2Proof/Tests/Slice0.lean ====
section
/-! SUPPORT. Tests of the model: ill-formed commands, worked cases of the manual, and for each obligation with hypotheses
a state and operands that meet them (test_witness_<obligation>). -/

namespace Sys2Proof.Tests

set_option Elab.async false

open Sys2Proof.Machine

/-! ## Small states -/

/-- What a condition says of the next state; false where there is none. -/
def leaves (o : Host.Outcome State Fault Refusal) (p : State → Bool) : Bool :=
  match o with
  | .next t => p t
  | .fault _ => false
  | .refused _ => false

/-- A station that is loading. -/
def loading (st : Straps) : State := { State.reset with phase := .loading, straps := st }

/-- A station right after a load that found no image, with no signal on any lane. -/
def started (st : Straps) : State :=
  match exec (.imageLoadEnd none 0) (loading st) with
  | .next t => t
  | .fault _ => State.reset
  | .refused _ => State.reset

/-- A trunk of two legs: leg 1 has lanes 0 to 3 of each side. -/
def trunk : State := started ⟨.trunk, .p1x2, 0⟩
/-- The leg chip of leg 1 of a 1X2 cable. -/
def chip : State := started ⟨.leg, .p1x2, 0⟩
/-- A chip out of plan. -/
def misplaced : State := started ⟨.leg, .p1x2, 3⟩

/-- The default image as bytes 0 to 107. -/
def defaultBytes : List Byte :=
  [1, 2, 0, 0, 0] ++ (List.replicate 16 ([2, 38, 6] : List Byte)).flatten ++ [6, 2, 12, 4, 1, 2]
    ++ [0, 0, 0, 0, 0, 0, 0, 0, 1, 2, 4, 8, 16, 32, 64, 128, 255, 255] ++ [1, 1, 0, 4, 0, 0, 64, 8, 0, 15]
    ++ List.replicate 16 0 ++ [2, 2, 2, 0, 0]

/-- A context in a state. -/
def inState (st : LegState) (s : State) : State := s.modCtx 1 fun c => { c with state := st }

/-- A message at the head of the status queue and in an attempt that ends at time 63. -/
def sending (m : MsgBody) (fails : Nat) (s : State) : State :=
  let cls := classOf m
  let f := s.frameOf cls ⟨0, 0, fails, m⟩
  s.modLine fun l => { l.modQueue cls (fun _ => [⟨0, 0, fails, m⟩]) with
    nextJoin := 1, underWay := true, attempt := some ⟨cls, 0, f, 63000⟩ }

/-- The line has been recessive for 8 bit times. -/
def idle (s : State) : State := s.modLine fun l => { l with idleRun := 8 }

/-- A record with one tail on the cable side. -/
def recordOf (x : IntervalNo) (t : Nat) : Record :=
  ⟨x, .up, .good, ⟨10, 0, 0, 0, 0, .good, false, false⟩, ⟨10, t, 0, 0, 0, .good, false, false⟩⟩

/-- A HELD capture of leg 2 around 7320 with the given records. -/
def capture (rs : List Record) : Capture :=
  ⟨some 42, 2, 2, 10, 7320, some 7308, rs, false, false, false, .held, 3, none⟩

/-! ## Ill-formed commands -/

theorem test_wf_image_length : Instr.wf (.imageLoadEnd (some [0]) 0) = false := by decide
theorem test_wf_codeword_leg : Instr.wf (.codewordClassified 0 .cableIn .uncorrectable) = false := by decide
theorem test_wf_idle_run : Instr.wf (.attemptStart 256) = false := by decide
theorem test_wf_sender : Instr.wf (.hushReceived 9 [0x10]) = false := by decide
theorem test_wf_beacon : Instr.wf (.beaconReceived 1 [0x00, 0x00]) = false := by decide
theorem test_wf_alert_cause : Instr.wf (.alertReceived 1 [0x00, 0x14, 0x00]) = false := by decide
theorem test_wf_hush_leg : Instr.wf (.hushReceived 0 [0x00]) = false := by decide
theorem test_wf_wake_length : Instr.wf (.wakeReceived 0 [0x10, 0x00]) = false := by decide
theorem test_wf_fetch_criterion : Instr.wf (.fetchReceived 0 [0x11, 0x05, 0x03, 0x00]) = false := by decide
theorem test_wf_parcel_group : Instr.wf (.parcelReceived 0 [0x11, 0x05, 0x00, 0x00, 0x00]) = false := by decide
theorem test_wf_solo_leg : Instr.wf (.soloTimerExpiry 0) = false := by decide
theorem test_wf_fault_hold_leg : Instr.wf (.faultHoldExpiry 0) = false := by decide
theorem test_wf_up_leg : Instr.wf (.upTimerExpiry 0) = false := by decide
theorem test_wf_dormancy_leg : Instr.wf (.dormancyTimerExpiry 0) = false := by decide
theorem test_wf_claim_wait_leg : Instr.wf (.claimWaitExpiry 0) = false := by decide
theorem test_wf_check_leg : Instr.wf (.checkTimerExpiry 0) = false := by decide
theorem test_wf_supervision_leg : Instr.wf (.supervisionTimerExpiry 0) = false := by decide
theorem test_wf_release_leg : Instr.wf (.checkReleaseTimerExpiry 0) = false := by decide
theorem test_wf_unknown_is_known : Instr.wf (.unknownRequest [0x01, 0x00]) = false := by decide
theorem test_wf_unknown_taken : Instr.wf (.unknownRequest [0x0F, 0x00]) = true := by decide

/-! ## Worked cases of the manual -/

/-- 1.9, Example 1: a damaged trunk image. -/
theorem test_image_example_1 :
    let x := adjustImage ⟨.trunk, .p1x8, 0⟩ ((((((((((defaultBytes.set 1 1).set 53 9).set 55 24).set 56 24).set 78
      0x07).set 79 0xD0).set 80 0x05).set 81 0xDC).set 82 0x06).set 83 0x40)
    x.image.k = 7 ∧ x.image.depth = 32 ∧ x.image.capB = 24 ∧ x.image.capA = 7 ∧ x.image.warn = 1499
      ∧ x.image.fail = 1500 ∧ x.image.hyst = 1499 ∧ x.image.frontClass = 2 ∧ x.slots = 8 ∧ x.adjust = 0x175 := by
  decide +kernel

/-- 1.9, Example 2: the half-rate leg chip with a short ring. -/
def halfRate : State := handOver (adjustImage ⟨.leg, .p1x4, 2⟩ ((defaultBytes.set 1 1).set 54 0)) false 0
  (loading ⟨.leg, .p1x4, 2⟩)

theorem test_image_example_2 :
    halfRate.image.frontClass = 1 ∧ halfRate.image.capA = 3 ∧ halfRate.adjust = 0x080 ∧ halfRate.slotCount = 8
      ∧ halfRate.legs = [3] ∧ halfRate.frontLanes 3 = [0, 1, 2, 3] ∧ halfRate.cableLanes 3 = [0, 1]
      ∧ halfRate.gear = true := by decide +kernel

/-- 1.9, Example 3: a chip in the wrong position. -/
theorem test_image_example_3 :
    leaves (exec (.imageLoadEnd none 0xFFFF) (loading ⟨.leg, .p1x2, 3⟩))
      (fun t => t.station == 4 && t.outOfPlan && t.imageDefaulted && (t.ctx 4).state == .faulted
        && (t.ctx 4).cause == .planMismatch && t.port.causes == 0x100 && (t.lane 3).rx == .seek
        && (t.lane 4).rx == .off) = true := by decide +kernel

/-- 4.9: the cable segment CL2, CL3 of a 1X4 trunk aligns with skew 150, and returns to SEARCH at 210. -/
theorem test_skew_of_two_lanes :
    let s := ((started ⟨.trunk, .p1x4, 0⟩).modLane 10 fun u => { u with rx := .locked, lock := .inLock, pos := 100 }).modLane
      11 fun u => { u with rx := .locked, lock := .found, pos := 250 }
    leaves (exec (.markerCheck 11 (.pattern 1 250 false)) s) (fun t =>
      (t.ctx 2).cable.skew == some 150 && (t.ctx 2).cable.align == .aligned
        && leaves (exec (.markerCheck 11 (.pattern 1 310 false)) t) (fun u =>
          (u.ctx 2).cable.skew == some 210 && (u.ctx 2).cable.align == .search && (u.ctx 2).cable.skewFlag
            && (u.ctx 2).cable.alignLosses == 1 && (u.ctx 2).cable.skewExcess == 1)) = true := by decide +kernel

/-- The accumulators of 5.7, row 1. -/
def worse1 : Accum :=
  { n := 5120, u := 0, saturated := false, loss := false
    h := #v[4974, 100, 30, 10, 0, 4, 0, 0, 0, 2, 0, 0, 0, 0, 0, 0] }
/-- The accumulators of 5.7, row 3. -/
def worse3 : Accum :=
  { n := 5120, u := 70, saturated := false, loss := false
    h := #v[5024, 0, 0, 0, 0, 0, 0, 0, 0, 0, 0, 0, 0, 0, 0, 26] }

/-- 5.7, interval 1: tail 9, density 45, strain 301, WARN. -/
theorem test_leg_growing_worse_1 :
    leaves (exec .intervalClose (chip.modSeg 1 .cableIn fun x => { x with strain := 300, grade := .warn, acc := worse1 }))
      (fun t => (t.ctx 1).ring.map Record.cable == [⟨5120, 9, 0, 45, 301, .warn, false, false⟩]
        && t.interval == 1) = true := by decide +kernel

/-- 5.7, interval 3: tail 16, density 302, strain 1077, FAIL. -/
theorem test_leg_growing_worse_3 :
    leaves (exec .intervalClose (chip.modSeg 1 .cableIn fun x => { x with strain := 567, grade := .warn, acc := worse3 }))
      (fun t => (t.ctx 1).ring.map Record.cable == [⟨5120, 16, 70, 302, 1077, .fail, false, false⟩]
        && (t.ctx 1).cable.failEntries == 1 && (t.ctx 1).legGrade == .fail) = true := by decide +kernel

/-- 5.8: the clamps. -/
theorem test_strain_limits :
    strainAfter 4000 511 1 = 4095 ∧ strainAfter 4095 0 1 = 4094 ∧ strainAfter 0 0 1 = 0 ∧ strainAfter 500 275 1 = 774
      ∧ strainAfter 100 0 255 = 0 := by decide

/-- 6.2: an ALERT runs 63 bit times and a BEACON with one summary 72. -/
theorem test_message_lengths :
    (mkFrame 0 3 .alert [42, 0x2A, 0]).wire.length = 63 ∧ (mkFrame 1 2 .beacon [0, 0, 0, 0]).wire.length = 72
      ∧ (mkFrame 1 0 .parcel (List.replicate 22 0)).wire.length = 234 := by decide +kernel

/-- 6.9: the three contenders' arbitration fields. -/
theorem test_arbitration_fields :
    (mkFrame (effPriority .urgent ⟨0, 0, 0, .alert 3 10 0⟩) 3 .alert [0, 0, 0]).arbitration = 0b000011
      ∧ (mkFrame (effPriority .bulk ⟨0, 9, 0, .parcel [] none⟩) 0 .parcel []).arbitration = 0b010000
      ∧ (mkFrame (effPriority .status ⟨0, 2, 0, .beacon⟩) 2 .beacon []).arbitration = 0b010010 := by decide +kernel

/-- 9.9: an ALERT of age 15 at a short ring opens a capture of 884..887, HELD at once and TRUNCATED. -/
theorem test_late_alert :
    let s := (idle { halfRate with interval := 900 }).modCtx 3 fun c => { c with
      ring := (List.range 16).map fun i => recordOf (BitVec.ofNat 16 (884 + i)) 0 }
    leaves (exec (.alertReceived 1 (encodeAlert ⟨5, 0, 3, 15⟩)) s) (fun t =>
      (t.slot 0).map (fun c => (c.t, c.first, c.records.length, c.truncated, c.state, c.leg))
        == some (884, some 884, 4, true, .held, 3)) = true := by decide +kernel

/-- The trunk of 10.8: its slot 5 holds 17 records of which seven are marked. -/
def packed : State :=
  (trunk.setSlot 5 (some (capture ((List.range 17).map fun i =>
    recordOf (BitVec.ofNat 16 (7308 + i)) (if i = 5 ∨ 11 ≤ i then 9 else 0))))).modLine fun l => { l with trig := 42 }

/-- 10.8: the first PARCEL has 24 bytes and no flags, the second 18 bytes and LAST. -/
theorem test_packing :
    (encodeParcel (buildParcel packed 1 ⟨0, 2, 42, .marked, 0⟩).1).length = 24
      ∧ ((buildParcel packed 1 ⟨0, 2, 42, .marked, 0⟩).1.groups.map fun g => (g.1, g.2.length)) = [(-7, 1), (-1, 3)]
      ∧ (encodeParcel (buildParcel packed 1 ⟨0, 2, 42, .marked, 4⟩).1).length = 18
      ∧ (buildParcel packed 1 ⟨0, 2, 42, .marked, 4⟩).1.last = true := by decide +kernel

/-- The bits of a tuning frame and of a PARCEL's flags aside, the four levels stand for 00, 01, 11, 10 (R35). -/
theorem test_level_bits :
    [Level.l0, .l1, .l2, .l3].map levelBits = [(false, false), (false, true), (true, true), (true, false)] := by decide

/-- The bytes of a reply record: status, code, length, body (R195, R196). -/
theorem test_reply_bytes : (⟨.notFound, 0x04, [3]⟩ : Reply).bytes = [4, 4, 0, 1, 3] := by decide

/-- The generator of the cyclic check on a known string. -/
theorem test_cyclic_check :
    crcBits (("123456789".toList.map fun c => byteOf c.toNat).flatMap byteBits) = 0x29B1 := by decide +kernel

/-- The default image with its check, as the 110 bytes of the one-time memory. -/
def memory : List Byte := defaultBytes ++ natBytes 2 (crcBits (defaultBytes.flatMap byteBits)).toNat

/-! ## States and operands that meet the hypotheses of the obligations -/

theorem test_witness_StepRunsFrontCommand :
    ({ State.reset with pending := [.powerOn, .clearCaptures] } : State).pending = .powerOn :: [.clearCaptures] := rfl

theorem test_witness_EmptyQueueIsOneBitTime :
    (trunk.pending = [] ∧ trunk.line.attempt = none ∧ trunk.line.underWay = false ∧ trunk.line.abortMark = none
        ∧ trunk.line.mode ≠ .stuck)
      ∧ trunk.phase = .running ∧ State.reset.phase ≠ .running
      ∧ (trunk.modLine fun l => { l with abortMark := some 9 }).line.abortMark ≠ none
      ∧ (sending .beacon 0 trunk).line.attempt.isSome = true := by decide +kernel

/-- The start mark and the first eight content bits of a trunk's ALERT are dominant, the separator after them is not (R102,
R115). -/
theorem test_runs_of_an_attempt :
    [7000, 8000, 9000].map (fun now => ((sending (.alert 1 3 0) 0 trunk).line.readBit now).domRun) = [8, 9, 0] := by
  decide +kernel

theorem test_witness_PowerOnAndEndOfReset :
    State.reset.phase = .inReset ∧ (loading ⟨.trunk, .p1x2, 0⟩).phase ≠ .inReset := by decide

theorem test_witness_LoadEndHandsOver :
    (loading ⟨.leg, .p1x2, 3⟩).phase = .loading ∧ UntouchedBeforeLoad (loading ⟨.leg, .p1x2, 3⟩) := ⟨rfl, fun _ => rfl⟩

set_option maxRecDepth 2400 in
theorem test_witness_ImageIsTakenOrDefaulted_accepted :
    memory.length = 110 ∧ imgByte memory 0 = 1
      ∧ (crcBits ((memory.take 108).flatMap byteBits)).toNat = imgWord memory 108 := by decide +kernel

theorem test_witness_ImageIsTakenOrDefaulted :
    (loading ⟨.trunk, .p1x8, 0⟩).phase = .loading ∧ ([] : List Byte).length ≠ 110 := by decide +kernel

theorem test_witness_LoadedImageInRange :
    (loading ⟨.leg, .p1x1, 0⟩).phase = .loading ∧ (loading ⟨.leg, .p1x1, 0⟩).straps.plan = .p1x1
      ∧ (loading ⟨.trunk, .p1x2, 0⟩).straps.role = .trunk := by decide

theorem test_witness_SignalChangeStartsRuns :
    ((trunk.lane 0).rx ≠ .off ∧ (trunk.lane 0).raw = false)
      ∧ (((trunk.modLane 0 fun u => { u with raw := true }).lane 0).rx ≠ .off
        ∧ ((trunk.modLane 0 fun u => { u with raw := true }).lane 0).raw = true)
      ∧ (chip.lane 7).rx = .off := by decide +kernel

/-- Lane 0 at the end of its run in a DORMANT context. -/
def rousing : State := inState .dormant (trunk.modLane 0 fun u => { u with raw := true, presentRun := some 1000000 })

theorem test_witness_PresentFlagSetAfterRun :
    (rousing.lane 0).presentRun = some 1000000 ∧ rousing.owner 0 = some 1 ∧ isFront 0 = true
      ∧ rousing.frontPresent 1 = false ∧ (rousing.lane 0).present = false ∧ (rousing.ctx 1).state = .dormant
      ∧ rousing.outOfPlan = false ∧ isFront 8 = false
      ∧ ((rousing.modLane 8 fun u => { u with presentRun := some 1 }).lane 8).presentRun = some 1
      ∧ rousing.owner 8 = some 1
      ∧ (rousing.modLane 1 fun u => { u with present := true }).frontPresent 1 = true := by decide +kernel

/-- Lane 0 at the end of its run in SEEK, with its present flag set or clear. -/
def sought (b : Bool) : State := trunk.modLane 0 fun u => { u with present := b, seekRun := some 1000000 }

theorem test_witness_SeekRunLeadsToAcquire :
    ((sought true).lane 0).rx = .seek ∧ ((sought true).lane 0).seekRun = some 1000000 ∧ (sought true).owner 0 = some 1
      ∧ ((sought true).lane 0).present = true ∧ ((sought false).lane 0).rx = .seek
      ∧ ((sought false).lane 0).seekRun = some 1000000 := by decide +kernel

/-- Lane `l` in a receiver state with both timers running. -/
def received (l : Lane) (r : RxState) : State :=
  trunk.modLane l fun u => { u with rx := r, raw := true, present := true, acquireTimer := some 5, adaptTimer := some 5 }

theorem test_witness_AcquireAndAdaptEnd :
    ((received 0 .acquire).lane 0).rx = .acquire ∧ ((received 0 .acquire).lane 0).acquireTimer = some 5
      ∧ (trunk.lane 0).rx ≠ .acquire ∧ ((received 0 .adapt).lane 0).rx = .adapt
      ∧ ((received 0 .adapt).lane 0).adaptTimer = some 5 := by decide +kernel

theorem test_witness_AdaptationGivesLocked :
    (received 0 .adapt).owner 0 = some 1 ∧ ((received 0 .adapt).lane 0).rx = .adapt ∧ frontLane 0 = 0
      ∧ ((received 0 .adapt).tuner 0).st = .waiting ∧ ((received 0 .adapt).ctx 1).state ≠ .dormant
      ∧ (trunk.lane 0).rx ≠ .adapt := by decide +kernel

/-- Lane `l` LOCKED, IN_LOCK, with a tuning engine in TUNING and an armed checker. -/
def tracking (l : Lane) : State :=
  (((received l .locked).modLane l fun u => { u with lock := .inLock }).modTuner 0 fun t =>
    { t with st := .tuning, tuneTimer := some 400000000 }).modChecker 0 fun c => { c with armed := true }

/-- Lane 0 as `tracking` has it, after some bad markers, its segment ALIGNED. -/
def aligned (bad : Nat) : State :=
  ((tracking 0).modLane 0 fun u => { u with badRun := bad }).modSeg 1 .frontIn fun x =>
    { x with align := .aligned, skew := some 7, acc := { x.acc with loss := false } }

theorem test_witness_LockLossEndsDelivery :
    (tracking 0).owner 0 = some 1 ∧ ((tracking 0).lane 0).rx = .locked ∧ ((tracking 0).lane 0).lock = .inLock
      ∧ ((tracking 0).tuner 0).st = .tuning ∧ (tracking 8).owner 8 = some 1 ∧ ((tracking 8).lane 8).rx = .locked
      ∧ cableLane 0 = 8 ∧ ((tracking 8).checker 0).armed = true
      ∧ (tracking 0).ctx? 1 = some ((tracking 0).ctx 1) := by decide +kernel

/-- The half-rate leg chip with lanes 0, 1 and CL0, CL1 marker-locked, its cable segment ALIGNED and its first pair and
first split in prime states. -/
def geared (a b : Prime) : State :=
  let s := forLanes (fun k s => (s.modLane (frontLane k) fun u => { u with rx := .locked, lock := .inLock, pos := 100 }).modLane
    (cableLane k) fun u => { u with rx := .locked, lock := .inLock, pos := 100 }) [0, 1] halfRate
  ((s.modSeg 3 .cableIn fun x => { x with align := .aligned }).modSplit 0 fun x => { x with prime := a }).modMerge 0 fun x =>
    { x with prime := b, half := some (true, 100) }

/-- R74: markers of two periods make no pair; the merge primes at the partner's own marker, and a bad one there unprimes it. -/
theorem test_pair_of_one_period :
    leaves (exec (.markerCheck 0 (.pattern 0 (100 + 17408) false)) (geared .primed .priming)) (fun t =>
        (t.merge 0).prime == .priming && (t.merge 0).half == some (false, 17508)
          && leaves (exec (.markerCheck 1 (.pattern 1 17700 false)) t) (fun u => (u.merge 0).prime == .primed)
          && leaves (exec (.markerCheck 1 .nothing) t) fun u => (u.merge 0).prime == .unprimed) = true := by
  decide +kernel

/-- 4.5: the second bad marker in a row costs a split its prime; a marker pair takes a merge from PRIMING to PRIMED; and a
lane that leaves LOCKED costs both their prime. -/
theorem test_gearbox :
    leaves (exec (.markerCheck 8 .nothing) (geared .primed .primed)) (fun t =>
        (t.split 0).bad == 1 && leaves (exec (.markerCheck 8 .nothing) t) fun u =>
          u.split 0 == { prime := .unprimed, bad := 0, losses := 1 }) = true
      ∧ leaves (exec (.markerCheck 0 (.pattern 0 100 false)) (geared .primed .priming)) (fun t =>
        (t.merge 0).prime == .primed && (t.merge 0).pairSkew == some 0) = true
      ∧ leaves (exec (.clockLockLost 8) (geared .primed .primed)) (fun t => (t.split 0).losses == 1) = true
      ∧ leaves (exec (.clockLockLost 0) (geared .primed .primed)) (fun t => (t.merge 0).losses == 1) = true := by
  decide +kernel

theorem test_witness_LockLossEndsDelivery_geared :
    (geared .primed .primed).gear = true ∧ (geared .primed .primed).owner 8 = some 3
      ∧ ((geared .primed .primed).lane 8).rx = .locked ∧ ((geared .primed .primed).lane 8).lock = .inLock
      ∧ ((geared .primed .primed).ctx 3).cable.align = .aligned ∧ (geared .primed .primed).owner 0 = some 3
      ∧ ((geared .primed .primed).split 0).prime = .primed
      ∧ ((geared .priming .unprimed).split 0).prime = .priming
      ∧ ((geared .priming .unprimed).merge 0).prime = .unprimed := by decide +kernel

/-- Leg 1 of the trunk UP with both readiness conditions, which no lane of it still meets. -/
def standing (st : LegState) : State := (inState st trunk).modCtx 1 fun c => { c with cableOk := true, frontOk := true }

/-- R146: the fall of readiness at a lost lane faults a leg in UP; R149: one in READY goes back to RISING. -/
theorem test_readiness_falls :
    leaves (exec (.clockLockLost 0) ((standing .up).modLane 0 fun u => { u with rx := .locked })) (fun t =>
        (t.ctx 1).state == .faulted && (t.ctx 1).cause == .cableLoss && (t.ctx 1).retry == 1) = true
      ∧ leaves (exec (.clockLockLost 0) ((standing .ready).modLane 0 fun u => { u with rx := .locked })) (fun t =>
        (t.ctx 1).state == .rising && (t.ctx 1).solo == none) = true := by decide +kernel

/-- Lane 0 in a receiver state at the end of 10 us of absence. -/
def fading (r : RxState) : State := (received 0 r).modLane 0 fun u => { u with raw := false, absentRun := some 10000 }

theorem test_witness_AbsenceSendsToSeek :
    (fading .locked).owner 0 = some 1 ∧ ((fading .locked).lane 0).absentRun = some 10000
      ∧ ((fading .locked).lane 0).rx = .locked ∧ ((fading .seek).lane 0).rx ≠ .off ∧ ((fading .seek).lane 0).rx ≠ .locked
      ∧ (fading .locked).ctx? 1 = some ((fading .locked).ctx 1) ∧ (fading .locked).frontPresent 1 = true
      ∧ ((fading .locked).ctx 1).state.awake = true ∧ ((fading .locked).ctx 1).mismatchHeld = false
      ∧ ((fading .locked).ctx 1).far.differs = false := by decide +kernel

/-- R152: the fall of front_present starts the dormancy timer; R65: a lane that leaves IN_LOCK takes its segment to SEARCH. -/
theorem test_absence_starts_dormancy :
    leaves (exec (.signalAbsent 0) (fading .locked)) (fun t =>
        t.frontPresent 1 == false && (t.ctx 1).dormancy == some (10000 + trunk.dormancyDelay)) = true
      ∧ leaves (exec (.clockLockLost 0) (aligned 0)) (fun t =>
        (t.ctx 1).front.align == .search && (t.ctx 1).front.alignLosses == 1 && (t.ctx 1).front.acc.loss
          && (t.ctx 1).front.skew == none) = true
      ∧ leaves (exec (.markerCheck 0 .nothing) (aligned 3)) (fun t => (t.ctx 1).front.align == .search) = true := by
  decide +kernel

theorem test_witness_PendingModeTakesEffect :
    ((trunk.modLane 0 fun u => { u with pendingMode := some .data }).lane 0).pendingMode = some .data
      ∧ (trunk.lane 0).pendingMode = none ∧ trunk.owner 0 = some 1 ∧ trunk.ctx? 1 = some (trunk.ctx 1)
      ∧ (trunk.lane 0).mode = .tune := by decide +kernel

/-- The engine of lane 0 in a state, its receiver LOCKED. -/
def engine (st : TuneState) : State := (received 0 .locked).modTuner 0 fun t => { t with st := st }

theorem test_witness_WishTakenAnsweredOrAbandoned :
    (engine .tuning).phase = .running ∧ ((engine .tuning).owner (frontLane 0)).isSome = true
      ∧ ((engine .tuning).lane (frontLane 0)).rx = .locked ∧ ((engine .tuning).tuner 0).wish = none
      ∧ ((engine .tuning).tuner 0).st = .tuning ∧ ((engine .tuning).tuner 0).req = none
      ∧ tapGet ((engine .tuning).tuner 0).closedInc .pre = false
      ∧ tapGet (((engine .tuning).modTuner 0 fun t => { t with closedDec := tapAll true }).tuner 0).closedDec .post = true
      ∧ (((engine .tuning).modTuner 0 fun t => { t with req := some ⟨.pre, .inc, .pending, .updated⟩ }).tuner 0).req ≠ none
      ∧ ((engine .closing).tuner 0).st = .closing ∧ ((engine .done).tuner 0).st = .done
      ∧ ((engine .failed).tuner 0).st = .failed := by decide +kernel

theorem test_witness_SettledMayClose :
    (engine .tuning).owner (frontLane 0) = some 1 ∧ ((engine .tuning).tuner 0).settled = false
      ∧ ((engine .tuning).tuner 0).wish = none ∧ ((engine .tuning).tuner 0).req = none
      ∧ (((engine .tuning).modTuner 0 fun t => { t with wish := some (.pre, .inc) }).tuner 0).wish ≠ none
      ∧ (((engine .tuning).modTuner 0 fun t => { t with req := some ⟨.pre, .inc, .pending, .updated⟩ }).tuner 0).req ≠ none
      ∧ (((engine .tuning).modTuner 0 fun t => { t with partnerReady := true }).tuner 0).partnerReady = true
      ∧ (((engine .tuning).modTuner 0 fun t => { t with settled := true }).tuner 0).settled = true := by decide +kernel

/-- A tuning frame with one tap request and a preset request. -/
def tuningFrame (r : Triple TapReq) (p : PresetReq) : TuningFrame := ⟨r, p, tapAll .notUpdated, false, false⟩

theorem test_witness_BadFrameOrNewPreset :
    (engine .tuning).phase = .running ∧ (engine .tuning).owner (frontLane 0) = some 1
      ∧ ((engine .tuning).lane (frontLane 0)).rx = .locked ∧ ((engine .tuning).tuner 0).st ≠ .closing
      ∧ (tuningFrame (tapAll .inc) .preset).preset ≠ .none
      ∧ (tuningFrame (tapAll .inc) .preset).preset ≠ ((engine .tuning).tuner 0).seenPreset := by decide +kernel

/-- The engine of lane 0 in TUNING with given taps. -/
def tapped (t : Triple Nat) : State := (engine .tuning).modTuner 0 fun u => { u with taps := t }

theorem test_witness_NewRequestStepsTap :
    ((tapped ⟨2, 38, 16⟩).tuner 0).st = .tuning ∧ ((tapped ⟨2, 38, 16⟩).tuner 0).seenPreset = .none
      ∧ ((tapped ⟨2, 38, 16⟩).tuner 0).seenReqs = tapAll .hold
      ∧ (tuningFrame ⟨.inc, .hold, .hold⟩ .none).reqs = tapSet (tapAll .hold) .pre .inc
      ∧ 56 < tapSum ((tapped ⟨2, 38, 16⟩).tuner 0).taps + 1
      ∧ ¬ (tapTop .pre ≤ 2 ∨ 56 < tapSum ((tapped ⟨2, 37, 16⟩).tuner 0).taps + 1)
      ∧ tapTop .post ≤ tapGet ((tapped ⟨0, 20, 16⟩).tuner 0).taps .post
      ∧ tapGet ((tapped ⟨0, 20, 16⟩).tuner 0).taps .main ≤ tapBottom .main := by decide +kernel

/-- Lane 0 in CLOSING with `n` closing frames sent. -/
def closing (n : Nat) : State :=
  ((engine .closing).modTuner 0 fun t => { t with closingSent := n }).modLane 0 fun u => { u with mode := .tune }

theorem test_witness_EighthClosingFrameGivesDone :
    (closing 7).phase = .running ∧ (closing 7).owner (frontLane 0) = some 1
      ∧ ((closing 7).lane (frontLane 0)).mode = .tune ∧ ((closing 7).tuner 0).st = .closing
      ∧ (closing 7).ctx? 1 = some ((closing 7).ctx 1) ∧ ¬ ((closing 7).tuner 0).closingSent < 7 ∧ ((closing 6).tuner 0).closingSent < 7 := by decide +kernel

/-- A request outstanding with both handshake timers set. -/
def asking : State := (engine .tuning).modTuner 0 fun t =>
  { t with req := some ⟨.pre, .inc, .releasing, .updated⟩, answerTimer := some 9, releaseTimer := some 9 }

theorem test_witness_HandshakeTimersEndRequest :
    asking.owner (frontLane 0) = some 1 ∧ (asking.tuner 0).req = some ⟨.pre, .inc, .releasing, .updated⟩
      ∧ (asking.tuner 0).wish = none ∧ (asking.tuner 0).answerTimer = some 9
      ∧ (asking.tuner 0).releaseTimer = some 9 := by decide +kernel

/-- The same with a wish that waits, its direction closed or not, and settled with partner_ready or not. -/
def waiting (shut closes : Bool) : State := asking.modTuner 0 fun t => { t with
  wish := some (.post, .dec), closedDec := tapSet t.closedDec .post shut, settled := closes, partnerReady := closes }

/-- R58: the end of the request and that of the wish that waited for it are both reported, in order. -/
theorem test_witness_HandshakeTimersEndRequest_waiting :
    let reports := fun (s : State) (a : WishReport) =>
      leaves (exec (.answerTimerExpiry 0) s) fun t => (t.tuner 0).reports == [.abandoned, a]
    ((waiting true false).tuner 0).wish = some (.post, .dec) ∧ ((waiting true false).tuner 0).st = .tuning
      ∧ tapGet ((waiting true false).tuner 0).closedDec .post = true ∧ (waiting true false).ownReady 0 = false
      ∧ ((waiting false true).ownReady 0 = true ∧ ((waiting false true).tuner 0).partnerReady = true)
      ∧ tapGet ((waiting false false).tuner 0).closedDec .post = false
      ∧ reports (waiting true false) (.answered .atMin) = true ∧ reports (waiting false true) .abandoned = true
      ∧ leaves (exec (.answerTimerExpiry 0) (waiting false false)) (fun t =>
          (t.tuner 0).reports == [.abandoned] && (t.tuner 0).req.isSome) = true := by decide +kernel

/-- The engine of lane 0 in a state with its tuning timer and its failure wait set. -/
def timed (st : TuneState) (b : Bool) : State :=
  (engine st).modTuner 0 fun t => { t with settled := b, tuneTimer := some 9, failWait := some 9 }

theorem test_witness_TuningTimeoutAndRestart :
    (timed .tuning true).owner (frontLane 0) = some 1 ∧ ((timed .tuning true).tuner 0).tuneTimer = some 9
      ∧ ((timed .tuning true).tuner 0).st = .tuning ∧ (timed .tuning true).ownReady 0 = true
      ∧ (timed .tuning false).ownReady 0 = false ∧ ((timed .closing true).tuner 0).st = .closing
      ∧ ((timed .failed true).tuner 0).failWait = some 9 := by decide +kernel

/-- Lane 0 LOCKED in a marker-lock state with a bad-marker run. -/
def marked (m : MarkerLock) (n : Nat) : State := (received 0 .locked).modLane 0 fun u => { u with lock := m, badRun := n }

theorem test_witness_MarkersMoveLock :
    (marked .hunt 0).owner 0 = some 1 ∧ ((marked .hunt 0).lane 0).rx = .locked ∧ ((marked .hunt 0).lane 0).lock = .hunt
      ∧ (marked .hunt 0).laneIndex 0 = 0 ∧ (marked .hunt 0).polarity 0 = false
      ∧ ((marked .found 0).lane 0).lock ≠ .hunt
      ∧ (((marked .inLock 2).lane 0).lock = .inLock ∧ ((marked .inLock 2).lane 0).badRun < 3)
      ∧ ¬ ((marked .inLock 3).lane 0).badRun < 3 ∧ (marked .inLock 3).ctx? 1 = some ((marked .inLock 3).ctx 1)
      ∧ (∃ m ∈ (marked .found 0).segLanes 1 (segmentOf 0), m ≠ 0 ∧ ((marked .found 0).lane m).lock ≠ .inLock) := by
  decide +kernel

/-- Every front lane of leg 1 marker-locked at a position of its own. -/
def skewed (p : Nat) : State :=
  forLanes (fun k s => s.modLane (frontLane k) fun u =>
    { u with rx := .locked, lock := .inLock, pos := if k = 3 then p else 100 }) [0, 1, 2, 3] trunk

theorem test_witness_SkewDecidesAlignment :
    (skewed 292).owner 0 = some 1 ∧ (skewed 292).ctx? 1 = some ((skewed 292).ctx 1) ∧ ((skewed 292).lane 0).rx = .locked
      ∧ ((skewed 292).lane 0).lock ≠ .hunt ∧ (skewed 292).laneIndex 0 = 0
      ∧ (∀ m ∈ (skewed 292).segLanes 1 (segmentOf 0), m ≠ 0 → ((skewed 292).lane m).lock = .inLock)
      ∧ leaves (exec (.markerCheck 0 (.pattern 0 100 false)) (skewed 292)) (fun t =>
          (t.ctx 1).front.skew == some 192 && (t.ctx 1).front.align == .aligned) = true
      ∧ leaves (exec (.markerCheck 0 (.pattern 0 100 false)) (skewed 293)) (fun t =>
          (t.ctx 1).front.skew == some 193 && (t.ctx 1).front.skewFlag) = true := by decide +kernel

theorem test_witness_CodewordIsCountedOnce :
    (((trunk.modSeg 1 .cableIn fun x => { x with align := .aligned }).ctx 1).seg .cableIn).align = .aligned
      ∧ ((trunk.ctx 1).seg .cableIn).align = .search := by decide +kernel

/-- The checker of CL0 armed, on a LOCKED receiver, with given loads outstanding. -/
def checking (n : Nat) : State :=
  (received 8 .locked).modChecker 0 fun c => { c with armed := true, toLoad := n, reg := 1, missRun := 7 }

theorem test_witness_PatternCheckerComparesSymbols :
    (((checking 16).checker 0).armed = true ∧ ((checking 16).checker 0).dead = false
        ∧ ((checking 16).lane (cableLane 0)).rx = .locked ∧ 0 < ((checking 16).checker 0).toLoad)
      ∧ ((checking 0).checker 0).toLoad = 0 ∧ (checking 0).polarity (cableLane 0) = false
      ∧ (prbsSymbol ((checking 0).checker 0).reg).1 = .l0 ∧ (prbsSymbol ((checking 0).checker 0).reg).1 ≠ .l3
      ∧ ¬ ((trunk.checker 0).armed = true) := by decide +kernel

/-- A chip that is UP, faults on strain, and has one segment near FAIL. -/
def straining : State :=
  let s := (inState .up chip).modSeg 1 .cableIn fun x => { x with strain := 1000, acc := { x.acc with u := 64 } }
  { s with image := { s.image with strainFault := true } }

theorem test_witness_IntervalCloseAdvances :
    straining.phase = .running ∧ 0 < straining.image.depth ∧ 1 ∈ straining.legs
      ∧ straining.ctx? 1 = some (straining.ctx 1) ∧ (straining.ctx 1).state = .up ∧ straining.image.strainFault = true
      ∧ (straining.ctx 1).cable.grade ≠ .fail
      ∧ leaves (exec .intervalClose straining) (fun t => (t.ctx 1).cable.grade == .fail && (t.ctx 1).cause == .strain)
        = true := by decide +kernel

theorem test_witness_RecordTailAndDensity :
    straining.phase = .running ∧ 1 ∈ straining.legs ∧ straining.ctx? 1 = some (straining.ctx 1)
      ∧ (straining.ctx 1).cable.acc.loss = true
      ∧ (worse3.loss = false ∧ 0 < worse3.u)
      ∧ (({ loss := false } : Accum).loss = false ∧ ({ loss := false } : Accum).u = 0
        ∧ ({ loss := false } : Accum).n = 0)
      ∧ (worse1.loss = false ∧ worse1.u = 0 ∧ 0 < worse1.n ∧ 0 < worse1.h.get 9
        ∧ ∀ j : Fin 16, 9 < j → worse1.h.get j = 0) := by decide +kernel

theorem test_witness_StrainAndGradeFollowTables :
    straining.phase = .running ∧ 1 ∈ straining.legs ∧ straining.ctx? 1 = some (straining.ctx 1)
      ∧ leaves (exec .intervalClose straining) (fun t => (t.ctx 1).ring.map (fun r => r.cable.t) == [17]) = true := by
  decide +kernel

/-- A station with a capture in slot 0. -/
def withCapture (t : IntervalNo) (st : CaptureState) : State :=
  trunk.setSlot 0 (some { capture [] with t := t, state := st })

theorem test_witness_FillingCaptureTakesRecord :
    (withCapture 0xFFFC .filling).slot 0 = some { capture [] with t := 0xFFFC, state := .filling }
      ∧ 2 ∈ (withCapture 0xFFFC .filling).legs
      ∧ (withCapture 0xFFFC .filling).ctx? 2 = some ((withCapture 0xFFFC .filling).ctx 2)
      ∧ (withCapture 0xFFFC .filling).interval ∈ windowOf (withCapture 0xFFFC .filling).image 0xFFFC
      ∧ (withCapture 0xFFFC .filling).interval = 0xFFFC + BitVec.ofNat 16 (withCapture 0xFFFC .filling).image.capA
      ∧ (withCapture 0xFFFB .filling).interval ∉ windowOf (withCapture 0xFFFB .filling).image 0xFFFB
      ∧ (withCapture 0 .held).slot 0 = some { capture [] with t := 0, state := .held } := by decide +kernel

/-- A trunk whose beacon and spacing timers run, with the given status queue. -/
def beaconing (q : List Msg) : State :=
  trunk.modLine fun l => { l with status := q, nextJoin := 1, beaconTimer := some 9, spacingTimer := some 9 }

/-- A trunk that has read this many recessive bits in a row since the load. -/
def quietFor (n : Nat) : State := trunk.modLine fun l => { l with idleRun := n }

/-- R121: the first BEACON is queued, and the beacon timer started, once 32 recessive bits have been read. -/
theorem test_first_beacon_waits_for_32_bits :
    exec .firstBeacon (quietFor 31) = .next (quietFor 31)
      ∧ leaves (exec .firstBeacon (quietFor 32)) (fun t => t.line.status.map Msg.body == [.beacon]
        && t.line.beaconTimer.isSome && t.line.idleRun == 32) = true := by
  refine ⟨?_, by decide +kernel⟩
  rfl

theorem test_witness_BeaconScheduleRuns :
    (quietFor 32).outOfPlan = false ∧ (quietFor 32).phase = .running ∧ (quietFor 32).line.beaconStarted = false
      ∧ 32 ≤ (quietFor 32).line.idleRun ∧ (∀ m ∈ (quietFor 32).line.status, m.body ≠ .beacon)
      ∧ (quietFor 31).line.idleRun < 32
      ∧ (beaconing []).line.beaconTimer = some 9 ∧ (beaconing []).line.spacingTimer = some 9
      ∧ ¬ (∀ m ∈ (beaconing [⟨0, 0, 0, .beacon⟩]).line.status, m.body ≠ .beacon) := by decide +kernel

theorem test_witness_AttemptStartsWithOfferedMessage :
    let s := idle (beaconing [⟨0, 5, 0, .beacon⟩])
    (s.phase = .running ∧ s.outOfPlan = false ∧ s.line.mode = .normal ∧ s.line.attempt = none
        ∧ s.line.abortMark = none ∧ s.line.underWay = false ∧ 8 = s.line.idleRun ∧ 8 + s.line.backoff.getD 0 ≤ 8
        ∧ s.line.queue .status ≠ [])
      ∧ misplaced.outOfPlan = true ∧ trunk.line.idleRun < 8 + s.line.backoff.getD 0 ∧ 255 ≠ s.line.idleRun
      ∧ (trunk.line.queue .urgent = [] ∧ trunk.line.queue .status = [] ∧ trunk.line.queue .bulk = [])
      ∧ (trunk.modLine fun l => { l with mode := .quiet }).line.mode ≠ .normal := by decide +kernel

theorem test_witness_ArbitrationLossKeepsMessage :
    (sending .beacon 0 trunk).line.attempt.isSome = true
      ∧ (∀ L ∈ allLegs, (sending .beacon 0 trunk).line.owedSleep.get L = none)
      ∧ (sending .beacon 0 trunk).line.owedFetch = none := by decide +kernel

/-- The attempt of `sending`. -/
def attemptOf (m : MsgBody) (s : State) : Attempt := ⟨classOf m, 0, s.frameOf (classOf m) ⟨0, 0, 0, m⟩, 63000⟩

theorem test_witness_FailedAttemptIsCounted :
    let m : MsgBody := .alert 1 3 0
    (sending m 14 trunk).line.attempt = some (attemptOf m trunk)
      ∧ (sending m 14 trunk).line.attempted (attemptOf m trunk) = some ⟨0, 0, 14, m⟩
      ∧ (∀ L ∈ allLegs, (sending m 14 trunk).line.owedSleep.get L = none) ∧ (sending m 14 trunk).line.owedFetch = none
      ∧ (sending m 15 trunk).line.attempted (attemptOf m trunk) = some ⟨0, 0, 15, m⟩
      ∧ (sending m 15 trunk).line.consecFails < 31
      ∧ 31 ≤ ((sending m 15 trunk).modLine fun l => { l with consecFails := 31 }).line.consecFails
      ∧ JoinsInOrder (sending m 15 trunk) := by
  refine ⟨by decide +kernel, by decide +kernel, by decide +kernel, by decide +kernel, by decide +kernel, by decide +kernel,
    by decide +kernel, ?_⟩
  intro cls
  cases cls <;> decide +kernel

/-- A trunk whose collection from station 1 runs. -/
def collecting : State := idle (trunk.modColl fun c => { c with
  state := .running, target := 1, trig := 42, leg := 2, cursor := 4, timeouts := 2, answer := some 20000000 })

/-- The FETCH it handed out last. -/
def latest : Fetch := ⟨1, 2, 42, .all, 4⟩

/-- R113, R192: the sixteenth failure of the latest FETCH is a timeout, the third of which fails the collection. -/
theorem test_witness_FailedAttemptIsCounted_fetch :
    (sending (.fetch latest) 15 collecting).line.attempted (attemptOf (.fetch latest) collecting)
        = some ⟨0, 0, 15, .fetch latest⟩
      ∧ leaves (exec (.attemptAbort 0) (sending (.fetch latest) 15 collecting)) (fun t =>
          t.coll.state == .failed && t.line.bulk == []) = true
      ∧ leaves (exec (.attemptAbort 0) ((sending (.fetch latest) 15 collecting).modColl fun c => { c with timeouts := 1 }))
        (fun t => t.coll.timeouts == 2 && t.line.bulk.map Msg.body == [.fetch latest]) = true := by decide +kernel

/-- R122: the spacing timer of a BEACON that completes while it runs goes on to 1 ms after the new mark (log 34). -/
theorem test_spacing_follows_the_mark :
    leaves (exec (.attemptEnd .recessive) ((sending .beacon 0 trunk).modLine fun l => { l with spacingTimer := some 9 }))
      (fun t => t.line.spacingTimer == some 1063000) = true := by decide +kernel

theorem test_witness_SuccessEndsAttempt :
    let a : MsgBody := .alert 1 3 0
    let p : MsgBody := .parcel [0x11, 42, 0, 3] (some (0, 3))
    let s := withCapture 0 .held
    ((sending a 0 trunk).line.attempt = some (attemptOf a trunk)
        ∧ (sending a 0 trunk).line.attempted (attemptOf a trunk) = some ⟨0, 0, 0, a⟩)
      ∧ (sending .beacon 0 trunk).line.attempted (attemptOf .beacon trunk) = some ⟨0, 0, 0, .beacon⟩
      ∧ (sending p 0 s).line.attempted (attemptOf p s) = some ⟨0, 0, 0, p⟩
      ∧ ((sending p 0 s).slot 0).map (fun c => (c.order, c.state)) = some (3, .held)
      ∧ (sending (.fetch latest) 0 collecting).line.attempted (attemptOf (.fetch latest) collecting)
        = some ⟨0, 0, 0, .fetch latest⟩ := by decide +kernel

theorem test_witness_LineModesFollowTimers :
    (trunk.modLine fun l => { l with abortMark := some 9, quietTimer := some 9 }).line.abortMark = some 9
      ∧ (trunk.modLine fun l => { l with abortMark := some 9, quietTimer := some 9 }).line.quietTimer = some 9
      ∧ trunk.phase = .running ∧ trunk.line.mode ≠ .stuck ∧ trunk.line.attempt = none ∧ trunk.line.underWay = false
      ∧ (trunk.modLine fun l => { l with mode := .stuck }).line.mode = .stuck := by decide +kernel

/-- The bits of a HUSH of leg 1 from the leg chip at station 1. -/
def hushBits : List Bool := wireOf 0 1 .hush [0x10]

/-- A station with these bits of a message under way. -/
def midMessage (bits : List Bool) : State := trunk.modLine fun l => { l with underWay := true, startMark := some 0, heard := bits }

theorem test_witness_FormatErrorIsDiscarded :
    Reads (wireOf 0 9 .hush [0x10]) (idle trunk) ∧ (idle trunk).line.underWay = false
      ∧ Reads (framed (headBits 0 1 .hush [0x10] ++ natBits 16 7)) (idle trunk) ∧ 7 ≠ crcBits (headBits 0 1 .hush [0x10])
      ∧ bodyWellFormed .alert 1 [0, 0x14, 0] = false
      ∧ (midMessage (hushBits.take 7 ++ [true])).line.heard.length = 8
      ∧ (midMessage (hushBits.take 7 ++ [true])).line.heard.getLast? = some true
      ∧ (midMessage (hushBits.take 9)).line.heard.length % 9 = 0 ∧ (midMessage (hushBits.take 9)).line.underWay = true
      ∧ trunk.phase = .running ∧ trunk.line.attempt = none ∧ trunk.line.abortMark = none ∧ trunk.line.underWay = false
      ∧ ¬ Reads hushBits trunk ∧ Reads hushBits (midMessage (hushBits.take 9)) ∧ ¬ Reads hushBits (midMessage [false, true])
      ∧ State.reset.phase ≠ .running := by
  unfold Reads
  decide +kernel

theorem test_witness_FormatErrorIsDiscarded_sender : FormatError .hush 9 [0x10] := Or.inl (by decide)

/-- How many bits of a message on an idle line have been read when it ends. -/
def endsAfter (bits : List Bool) : Option Nat :=
  (List.range (bits.length + 1)).find? fun n => endingOf (bits.take n) != .goesOn

/-- R105: the bit that ends a message, its start mark and the separators among those before it: a sender above 8, a kind of 6
or 7, a length of 25, one the kind forbids, a leg of 0, an ALERT cause of 4, a leg named twice, a failed check, an end mark read
dominant. -/
theorem test_fault_shows_at_its_bit :
    endsAfter (wireOf 0 9 .hush [0x10]) = some 7 ∧ endsAfter (wireOf 0 14 .hush [0x10]) = some 5
      ∧ endsAfter (framed (natBits 2 0 ++ natBits 4 0 ++ natBits 3 6 ++ natBits 21 0)) = some 9
      ∧ endsAfter (framed (natBits 2 0 ++ natBits 4 0 ++ natBits 3 5 ++ natBits 5 25 ++ natBits 16 0)) = some 16
      ∧ endsAfter (wireOf 0 1 .hush [0x10, 0]) = some 15 ∧ endsAfter (wireOf 0 1 .wake [0x00]) = some 21
      ∧ endsAfter (wireOf 0 1 .alert [0, 0x14, 0]) = some 32
      ∧ endsAfter (wireOf 0 0 .beacon [1, 0, 0x10, 0, 0x10, 0]) = some 56
      ∧ endsAfter (framed (headBits 0 1 .hush [0x10] ++ natBits 16 7)) = some 45
      ∧ endsAfter (hushBits.take 43 ++ [false]) = some 44 ∧ endingOf hushBits = .whole .hush 1 [0x10] := by
  decide +kernel

/-- R105, R115: a sender of 9 ends the message at its seventh bit, the start mark among them, and the bits after it are read
as those of a line that is not idle; a dominant separator ends one at the tenth. -/
theorem test_discard_counts_the_bits_read :
    leaves (exec (.messageDiscarded ((wireOf 0 9 .hush [0x10]).take 7)) (idle trunk)) (fun t => t.line.domRun == 0
        && t.now == 7000 && t.line.lineErrors == 1 && !t.line.underWay && t.line.heard == []) = true
      ∧ leaves (exec (.hushReceived 9 [0x10] 0) (idle trunk)) (fun t => t.line.lineErrors == 1 && t.now == 45000) = true
      ∧ leaves (exec (.messageDiscarded (List.replicate 10 false)) (idle trunk)) (fun t => t.line.domRun == 10
        && t.line.idleRun == 0 && t.line.lineErrors == 1 && !t.line.underWay) = true := by
  decide +kernel

/-- R101: on a line that is not idle a dominant bit ends the idle run, counts for STUCK and starts nothing; 8 recessive bits
later a dominant bit is a start mark, and 65 dominant bits in a row are read as such. -/
theorem test_dominant_bit_off_idle :
    leaves (exec (.messageDiscarded [false, false]) (quietFor 7)) (fun t => t.line.idleRun == 0 && t.line.domRun == 2
        && t.line.lineErrors == 0 && t.line.startMark == none) = true
      ∧ leaves (exec (.messageDiscarded (false :: List.replicate 8 true ++ [false])) (quietFor 7)) (fun t =>
        t.line.underWay && t.line.startMark == some 9000 && t.line.heard == [false]) = true
      ∧ leaves (exec (.messageDiscarded (List.replicate 65 false)) (quietFor 7)) (fun t => t.line.domRun == 65) = true := by
  decide +kernel

/-- R101, R105: a message of ones that begins while the line is not yet idle is taken to start at a later dominant bit, and ends
there at the bit that shows the fault. -/
theorem test_false_start_ends_at_its_fault :
    leaves (exec (.messageDiscarded (false :: List.replicate 8 true ++ [false, true, true, true, true])) (quietFor 7)) (fun t =>
      t.line.lineErrors == 1 && !t.line.underWay && t.line.heard == [] && t.now == 14000) = true := by
  decide +kernel

/-- R106: the bits of a message read one by one do what the whole message does, and so does the last bit by an empty step. -/
theorem test_bits_of_a_message_complete_it :
    let s := idle (inState .ready trunk)
    leaves (exec (.hushReceived 1 [0x10] 0) s) (fun whole =>
      leaves (exec (.messageDiscarded hushBits) s) (fun t => t == whole)
        && leaves (exec (.messageDiscarded (hushBits.take 44)) s) (fun t => t.line.underWay
          && leaves (step t) (fun u => u == whole))) = true := by
  decide +kernel

/-- R110: the station that lost arbitration has read the winner's bits so far; the rest completes the winner's message. -/
theorem test_loser_reads_the_winner :
    let s := { (sending (.sleep .hush 1) 0 trunk).modLine (fun l => { l with
      attempt := some ⟨.status, 0, mkFrame 1 0 .hush [0x10], 45000⟩, startMark := some 0 }) with now := 3000 }
    leaves (exec .arbitrationLost s) (fun t => t.line.heard == [false, false, false]
      && leaves (exec (.alertReceived 1 (encodeAlert ⟨5, 0, 3, 15⟩) 0) t) (fun u =>
        u.line.received == 1 && u.line.trig == 5 && u.now == 63000)) = true := by
  decide +kernel

/-- The two commands with defaults run the meaning with every operand they carry. -/
theorem test_operands_reach_the_meaning (levels : List Bool) (n : Nat) (body : List Byte) (pr : Fin 4) (s : State) :
    exec (.messageDiscarded levels) s = execMessageDiscarded s levels
      ∧ exec (.beaconReceived n body pr) s = execBeaconReceived n body s pr := ⟨rfl, rfl⟩

/-- Each fault of R105 shows, and a good body has none. -/
theorem test_witness_FormatErrorIsDiscarded_faults :
    BodyFault .beacon [0, 0, 0x1C, 0] ∧ BodyFault .beacon [1, 0, 0x10, 0, 0x10, 0] ∧ BodyFault .beacon [0, 0, 0x10, 0xC0]
      ∧ BodyFault .beacon [0, 0, 0x10, 8] ∧ BodyFault .alert [0, 0x14, 0] ∧ ¬ BodyFault .alert [0, 0x0F, 0xF0]
      ∧ BodyFault .hush [0x90] ∧ ¬ BodyFault .wake [0x80] ∧ BodyFault .fetch [0x01, 0, 3, 0]
      ∧ ¬ BodyFault .beacon [0, 0, 0x10, 0] := by
  simp only [BodyFault, NoLeg]
  refine ⟨?_, ?_, ?_, ?_, ?_, ?_, ?_, ?_, ?_, ?_⟩ <;> decide +kernel

/-- Group bytes that no groups spell, a digest of tail 18, and NONE with a group. -/
theorem test_witness_FormatErrorIsDiscarded_parcel :
    BodyFault .parcel [0x01, 0, 0, 0, 5] ∧ BodyFault .parcel [0x01, 0, 0, 0, 0, 1, 0x90, 0, 0, 0]
      ∧ BodyFault .parcel [0x01, 0, 0, 2, 0, 1, 0, 0, 0, 0] := by
  refine ⟨Or.inr (Or.inr (Or.inr (Or.inr (Or.inl ?_)))), Or.inr (Or.inr (Or.inr (Or.inr (Or.inr (Or.inl
    ⟨[(0, [[0x90, 0, 0, 0]])], ?_, ?_⟩))))), Or.inr (Or.inr (Or.inr (Or.inr (Or.inr (Or.inr ?_)))))⟩
  · rintro ⟨_ | ⟨g, gs⟩, h, _⟩
    · cases h
    · replace h := congrArg List.length h
      simp at h
  · unfold SpellsGroups
    decide +kernel
  · unfold DigestFault
    decide +kernel
  · decide +kernel

/-- R101: a message read from a start mark now leaves the clock at its end mark and takes no bit into the idle run. -/
theorem test_message_takes_its_time :
    leaves (exec (.hushReceived 8 [0x10]) (idle trunk)) (fun t => t.now == 45000 && t.line.idleRun == 0
      && t.line.received == 1) = true := by decide +kernel

/-- A BEACON of the leg chip at station 1 that is UP. -/
def beaconOf1 : BeaconBody := ⟨.leg, .p1x2, 2, true, 7, [⟨1, .up, .good, true, true, false, .none⟩]⟩

theorem test_witness_BeaconIsTaken :
    Reads (wireOf 0 1 .beacon (encodeBeacon beaconOf1)) (idle trunk) ∧ decodeBeacon (encodeBeacon beaconOf1) = some beaconOf1 ∧ (1 : Station) ≠ trunk.station
      ∧ ((idle trunk).legs.filter fun M => (idle trunk).farStation M == 1) = [1]
      ∧ trunk.line.synced = false ∧ (trunk.modLine fun l => { l with synced := true }).line.synced = true
      ∧ trunk.farStation 1 = 1 := by
  unfold Reads
  decide +kernel

/-- What a BEACON of station 1 does to leg 1 in a state: R144 to UP, R151 a plan that differs, R158 a claim, R160 its own
claim met, R147 back to READY. -/
def afterBeacon (b : BeaconBody) (st : LegState) (claim : Bool) (p : Ctx → Bool) : Bool :=
  leaves (exec (.beaconReceived 1 (encodeBeacon b)) ((idle (inState st trunk)).modCtx 1 fun c => { c with claim := claim }))
    fun t => p (t.ctx 1)

theorem test_far_results :
    let far := fun (st : LegState) (claim : Bool) =>
      ({ beaconOf1 with summaries := [⟨1, st, .good, true, true, claim, .none⟩] } : BeaconBody)
    afterBeacon (far .up false) .ready false (fun c => c.state == .up) = true
      ∧ afterBeacon { beaconOf1 with plan := .p1x4 } .up false (fun c => c.state == .faulted && c.held) = true
      ∧ afterBeacon (far .up true) .up false (fun c => c.state == .check && c.role == some .follower) = true
      ∧ afterBeacon (far .up true) .up true (fun c => c.state == .up && c.claim) = true
      ∧ afterBeacon (far .check false) .up true (fun c => c.state == .check && c.role == some .claimant) = true
      ∧ afterBeacon (far .rising false) .up false (fun c => c.state == .ready) = true := by decide +kernel

/-- Context 1 of a station on an idle line under a PLAN_MISMATCH hold, with or without a claim of its own. -/
def heldWith (claim : Bool) (s : State) : State :=
  (idle (inState .faulted s)).modCtx 1 fun c => { c with
    held := true, cause := .planMismatch, claim := claim, claimWait := if claim then some 32000000 else none }

/-- A BEACON of the trunk of a 1X2 cable with a claim for leg 1. -/
def claimOf0 : BeaconBody :=
  ⟨.trunk, .p1x2, 2, true, 7, [⟨1, .ready, .good, true, true, true, .none⟩, ⟨2, .ready, .good, true, true, false, .none⟩]⟩

theorem test_witness_BeaconIsTaken_released :
    Reads (wireOf 0 0 .beacon (encodeBeacon claimOf0)) (heldWith true chip) ∧ ((heldWith true chip).ctx 1).mismatchHeld = true ∧ ((heldWith true chip).ctx 1).claim = true
      ∧ decodeBeacon (encodeBeacon claimOf0) = some claimOf0 ∧ (chip.farStation 1).val < chip.station.val
      ∧ chip.frontLanes 1 ≠ [] ∧ chip.outOfPlan = false
      ∧ Reads (wireOf 0 1 .beacon (encodeBeacon beaconOf1)) (heldWith true trunk) ∧ ((heldWith true trunk).ctx 1).mismatchHeld = true ∧ trunk.frontLanes 1 ≠ [] := by
  unfold Reads
  decide +kernel

/-- R151, R159, R160: at the handing that ends the hold a leg chip's claim yields to the trunk's, the trunk keeps its own
before the chip's, and enters CHECK where the chip is there; without an own claim the context is in RISING (log 14). -/
theorem test_release_reads_the_own_claim :
    let far := fun (st : LegState) (claim : Bool) =>
      encodeBeacon { beaconOf1 with summaries := [⟨1, st, .good, true, true, claim, .none⟩] }
    leaves (exec (.beaconReceived 0 (encodeBeacon claimOf0)) (heldWith true chip)) (fun t =>
        let c := t.ctx 1
        c.state == .check && c.role == some .follower && c.outcome == some .yielded && !c.claim && c.claimWait == none
          && !c.held && c.supervision.isSome && t.port.causes &&& Attn.checkDone.mask == Attn.checkDone.mask) = true
      ∧ leaves (exec (.beaconReceived 0 (encodeBeacon claimOf0)) (heldWith false chip)) (fun t =>
        (t.ctx 1).state == .rising && !(t.ctx 1).held) = true
      ∧ leaves (exec (.beaconReceived 1 (far .up true)) (heldWith true trunk)) (fun t =>
        (t.ctx 1).state == .rising && (t.ctx 1).claim && (t.ctx 1).claimWait == some 32000000) = true
      ∧ leaves (exec (.beaconReceived 1 (far .check false)) (heldWith true trunk)) (fun t =>
        let c := t.ctx 1
        c.state == .check && c.role == some .claimant && c.claim && c.claimWait == none && c.check.isSome
          && (trunk.cableLanes 1).all fun k => (t.checker k).armed) = true := by
  decide +kernel

theorem test_witness_AlertIsFollowed :
    let full := { trunk with slots := Vector.replicate 8 (some (capture [])) }
    Reads (wireOf 0 1 .alert (encodeAlert ⟨5, 1, 10, 2⟩)) (idle trunk) ∧ decodeAlert (encodeAlert ⟨5, 1, 10, 2⟩) = some ⟨5, 1, 10, 2⟩
      ∧ trunk.allocate = some 0
      ∧ actionLegs trunk (windowAction trunk.image (alertKey 1 1 10)) 1 = [1]
      ∧ full.allocate = none ∧ actionLegs full (windowAction full.image (alertKey 1 1 10)) 1 = [1] := by
  unfold Reads
  decide +kernel

theorem test_witness_SleepMessagesMoveFarLeg :
    Reads hushBits (idle trunk) ∧ Reads (wireOf 0 1 .wake [0x10]) (idle (inState .dormant trunk))
      ∧ Reads hushBits (midMessage (hushBits.take 9)) ∧ decodeSleep (encodeSleep 1) = some 1 ∧ trunk.ctx? 1 = some (trunk.ctx 1) ∧ (1 : Station) ≠ trunk.station
      ∧ trunk.farStation 1 = 1 ∧ (trunk.ctx 1).state.awake = true ∧ (trunk.ctx 1).mismatchHeld = false
      ∧ ((inState .ready (trunk.modCtx 1 fun c => { c with claim := true })).ctx 1).claim = true
      ∧ ((inState .dormant trunk).ctx 1).state = .dormant
      ∧ ¬ ((inState .check trunk).ctx 1).state.awake = true := by
  unfold Reads
  decide +kernel

theorem test_witness_FetchIsServedOrDropped :
    let f : Fetch := ⟨0, 2, 42, .marked, 0⟩
    let full := packed.modLine fun l => { l with bulk := List.replicate 4 ⟨0, 0, 0, .parcel [] none⟩ }
    decodeFetch (encodeFetch f) = some f ∧ (1 : Station) ≠ packed.station ∧ packed.outOfPlan = false
      ∧ Reads (wireOf 0 1 .fetch (encodeFetch f)) (idle packed) ∧ Reads (wireOf 0 1 .fetch (encodeFetch f)) (idle full)
      ∧ f.target = packed.station ∧ packed.line.bulk.length < 4 ∧ 4 ≤ full.line.bulk.length
      ∧ (packed.findCapture 42 2).map Prod.fst = some 5 ∧ packed.findCapture 43 2 = none
      ∧ (3 : Station) ≠ packed.station := by
  unfold Reads
  decide +kernel

/-- A PARCEL that answers the collection from station 1. -/
def parcelOf (cursor : Byte) (last none' nf : Bool) (n : Nat) : ParcelBody :=
  ⟨0, 2, 42, cursor, last, none', false, nf, if n = 0 then [] else [(-1, List.replicate n ⟨9, 0, .up, .good, 0, 0⟩)]⟩

theorem test_witness_ParcelIsTakenOrLate :
    let expected := fun (p : ParcelBody) =>
      collecting.coll.state = .running ∧ (1 : Station) = collecting.coll.target ∧ p.trig = collecting.coll.trig
        ∧ p.leg = collecting.coll.leg ∧ p.cursor = collecting.coll.cursor
    decodeParcel (encodeParcel (parcelOf 4 false false false 4)) = some (parcelOf 4 false false false 4)
      ∧ (1 : Station) ≠ collecting.station ∧ (parcelOf 4 false false false 4).requester = collecting.station
      ∧ expected (parcelOf 4 false false false 4) ∧ 0 < digestCount (parcelOf 4 false false false 4).groups
      ∧ expected (parcelOf 4 true false false 1) ∧ expected (parcelOf 4 true true false 0)
      ∧ expected (parcelOf 4 false false true 0) ∧ ¬ expected (parcelOf 3 false false false 4)
      ∧ expected (parcelOf 4 false false false 0) ∧ 2 ≤ collecting.coll.timeouts ∧ Reads (wireOf 0 1 .parcel (encodeParcel (parcelOf 4 false false false 4))) collecting
      ∧ collecting.outOfPlan = false ∧ collecting.coll.cursor.toNat + 4 ≤ 255
      ∧ 255 < (collecting.modColl fun c => { c with cursor := 252 }).coll.cursor.toNat + 4 := by
  unfold Reads
  decide +kernel

/-- R193: digests alone move the cursor and hand out the next FETCH; a cursor that would pass 255 ends the collection. -/
theorem test_parcel_moves_cursor :
    leaves (exec (.parcelReceived 1 (encodeParcel (parcelOf 4 false false false 4))) collecting) (fun t =>
        t.line.bulk.map Msg.body == [.fetch { latest with cursor := 8 }] && t.coll.timeouts == 0) = true
      ∧ leaves (exec (.parcelReceived 1 (encodeParcel (parcelOf 252 false false false 4)))
          (collecting.modColl fun c => { c with cursor := 252 })) (fun t =>
        t.coll.state == .done && t.coll.endFlag == some .last && t.coll.truncated && t.coll.cursor == 252) = true := by
  decide +kernel

/-- A trunk that has heard station 1. -/
def hearing (b : Bool) : State :=
  { inState .up trunk with roster := [⟨1, .leg, .p1x2, 2, 7, true, beaconOf1.summaries, 0, b, 1, false⟩] }

theorem test_witness_EntriesAge :
    ((hearing true).entry? 1).map Entry.fresh = some true ∧ ((hearing false).entry? 1).map Entry.fresh = some false
      ∧ ((hearing true).legs.filter fun M => (hearing true).farStation M == 1) = [1]
      ∧ ((hearing true).ctx 1).state = .up ∧ (hearing true).outOfPlan = false := by decide +kernel

/-- Leg 1 with all its timers set. -/
def clocked (st : LegState) (f : FarResult) : State := trunk.modCtx 1 fun c => { c with
  state := st, far := f, solo := some 9, faultHold := some 9, up := some 9, dormancy := some 9, claimWait := some 9
  check := some 9, supervision := some 9, release := some 9 }

/-- A fresh far result in a state. -/
def farIn (st : LegState) : FarResult := .fresh ⟨st, .good, true, true, false, .none⟩

theorem test_witness_LegTimersMoveLegs :
    (clocked .ready .absent).ctx? 1 = some ((clocked .ready .absent).ctx 1)
      ∧ ((clocked .ready .absent).ctx 1).solo = some 9 ∧ ((clocked .ready .absent).ctx 1).far = .absent
      ∧ ((clocked .ready (farIn .up)).ctx 1).far ≠ .absent ∧ ((clocked .ready (farIn .up)).ctx 1).far ≠ .stale
      ∧ ((clocked .faulted .absent).ctx 1).faultHold = some 9 ∧ ((clocked .faulted .absent).ctx 1).state = .faulted
      ∧ ((clocked .faulted .absent).ctx 1).held = false ∧ (clocked .faulted .absent).frontLanes 1 ≠ []
      ∧ ((clocked .faulted (.planDiffers none)).ctx 1).far.differs = true
      ∧ ((clocked .ready .absent).ctx 1).state ≠ .faulted ∧ ((clocked .up .absent).ctx 1).up = some 9
      ∧ ((clocked .up .absent).ctx 1).dormancy = some 9 ∧ ((clocked .up .absent).ctx 1).claimWait = some 9
      ∧ (clocked .up .absent).outOfPlan = false := by decide +kernel

/-- Leg 1 of the chip at the end of its check, in a role, with a pattern count. -/
def ending (r : CheckRole) (n : Nat) : State :=
  ((clocked .check (farIn .check)).modCtx 1 fun c => { c with role := some r }).modChecker 0 fun c =>
    { c with armed := true, count := n }

theorem test_witness_CheckEnds :
    (ending .claimant 0).ctx? 1 = some ((ending .claimant 0).ctx 1) ∧ ((ending .claimant 0).ctx 1).check = some 9
      ∧ ((ending .claimant 0).ctx 1).far.inCheck = true ∧ ((ending .claimant 0).ctx 1).role = some .claimant
      ∧ (∀ n ∈ (ending .claimant 0).frozenCounts 1, n ≤ (ending .claimant 0).image.checkLimit)
      ∧ ¬ (∀ n ∈ (ending .follower 1).frozenCounts 1, n ≤ (ending .follower 1).image.checkLimit)
      ∧ ((ending .follower 1).ctx 1).role ≠ some .claimant ∧ (ending .follower 1).originates .checkFail = true
      ∧ (ending .follower 1).line.urgent.length < 2 ∧ (ending .follower 1).outOfPlan = false
      ∧ ((ending .follower 1).ctx 1).supervision = some 9 ∧ ((ending .follower 1).ctx 1).release = some 9 := by
  decide +kernel

theorem test_witness_RefusedRequestsOnlyReply :
    State.reset.phase ≠ .running ∧ ([1] : List Byte).length ≠ (2 : Byte).toNat
      ∧ ¬ ((1 ≤ (9 : Byte).toNat ∧ (9 : Byte).toNat ≤ 8) ∨ (0x10 ≤ (9 : Byte).toNat ∧ (9 : Byte).toNat ≤ 0x14)
        ∨ (0x18 ≤ (9 : Byte).toNat ∧ (9 : Byte).toNat ≤ 0x1A))
      ∧ requestOf 0x02 [] = none ∧ requestOf 0x02 [1] = some (.readLeg 1) := by decide

theorem test_witness_ReadsChangeOnlyTheReply :
    let s := packed.modCtx 1 fun c => { c with ring := [recordOf 0 9, recordOf 1 9] }
    s.phase = .running ∧ s.heldLeg 0 = none ∧ s.heldLeg 1 = some 1 ∧ s.heldLeg 3 = none
      ∧ (s.ctx 1).ring[(s.ctx 1).ring.length - 1 - 1]? = some (recordOf 0 9) ∧ (s.ctx 1).ring.length ≤ 2
      ∧ s.slot 5 = packed.slot 5 ∧ (s.slot 5).isSome = true ∧ s.slot 7 = none ∧ 7 < s.slotCount
      ∧ (s.slot 5).map (fun c => (c.state, c.records.length)) = some (.held, 17) := by decide +kernel

theorem test_witness_AttentionIsReadAndCleared :
    trunk.phase = .running ∧ (512 : BitVec 16).toNat = 512 ∧ (511 : BitVec 16).toNat < 512
      ∧ (trunk.modPort fun p => { p with throttle := some 9 }).port.throttle = some 9 := by decide +kernel

theorem test_witness_RestartLegStartsOver :
    trunk.phase = .running ∧ trunk.heldLeg 3 = none ∧ trunk.heldLeg 1 = some 1 ∧ trunk.ctx? 1 = some (trunk.ctx 1)
      ∧ trunk.frontLanes 1 ≠ [] ∧ (misplaced.ctx 4).mismatchHeld = true ∧ misplaced.frontLanes 4 ≠ []
      ∧ ((trunk.modCtx 1 fun c => { c with far := .planDiffers none }).ctx 1).far.differs = true
      ∧ ((inState .dormant trunk).ctx 1).state = .dormant ∧ ((inState .check trunk).ctx 1).release = none := by
  decide +kernel

theorem test_witness_CheckSegmentClaims :
    let free := fun (c : Ctx) => ¬ (c.state = .dormant ∨ c.state = .rising ∨ c.state = .check ∨ c.claim = true
      ∨ (c.state = .faulted ∧ c.held = true ∧ c.cause = .planMismatch) ∨ c.far.claims = true)
    trunk.heldLeg 0 = none ∧ trunk.heldLeg 1 = some 1 ∧ trunk.ctx? 1 = some (trunk.ctx 1)
      ∧ (trunk.ctx 1).state = .rising ∧ free ((inState .ready trunk).ctx 1)
      ∧ (inState .ready trunk).heldLeg 1 = some 1 := by decide +kernel

theorem test_witness_TriggerAndClearCaptures :
    let masked := { trunk with image := { trunk.image with originMask := 0 } }
    let full := trunk.modLine fun l => { l with urgent := List.replicate 2 ⟨0, 0, 0, .alert 1 3 0⟩ }
    let taken := { trunk with slots := Vector.replicate 8 (some (capture [])) }
    trunk.phase = .running ∧ trunk.heldLeg 3 = none ∧ trunk.heldLeg 1 = some 1 ∧ masked.originates .manual = false
      ∧ trunk.originates .manual = true ∧ trunk.outOfPlan = false ∧ trunk.line.urgent.length < 2
      ∧ 2 ≤ full.line.urgent.length ∧ trunk.allocate = some 0 ∧ taken.allocate = none := by decide +kernel

theorem test_witness_CollectStartsOrRefuses :
    trunk.phase = .running ∧ 8 < (9 : Byte).toNat ∧ trunk.coll.state ≠ .running ∧ (1 : Byte).toNat ≠ trunk.station.val
      ∧ collecting.coll.state = .running ∧ collecting.coll.answer = some 20000000 ∧ collecting.outOfPlan = false
      ∧ 2 ≤ collecting.coll.timeouts
      ∧ (collecting.modColl fun c => { c with timeouts := 1 }).coll.timeouts < 2
      ∧ misplaced.outOfPlan = true := by decide +kernel

/-- The captures of `packed` are in order: one, of the 17 records of its window. -/
theorem packed_captures : CapturesInOrder packed := by
  have h : ∀ i : Fin 8, (match packed.slot i with
      | none => true
      | some c => decide (i.val < packed.slotCount) && (packed.ctx? c.leg).isSome
          && decide (c.records.length = (windowOf packed.image c.t).length)
          && decide (c.first = (windowOf packed.image c.t)[0]?)
          && decide (c.records.map Record.interval = windowOf packed.image c.t) && c.state == .held) = true := by
    decide +kernel
  intro i c hc
  have := h i
  rw [hc] at this
  simp only [Bool.and_eq_true, decide_eq_true_eq, beq_iff_eq] at this
  obtain ⟨⟨⟨⟨⟨h1, h2⟩, h3⟩, h4⟩, h5⟩, h6⟩ := this
  refine ⟨h1, h2, 0, by omega, h4, ?_, fun hf => ?_⟩
  · rw [List.drop_zero, h3, List.take_length, h5]
  · rw [h6] at hf
    cases hf

theorem packed_image : packed.image.InRange := by
  unfold Image.InRange TapsInRange
  decide +kernel

theorem test_witness_SelfServedCollectionHoldsSelection :
    packed.phase = .running ∧ CapturesInOrder packed
      ∧ packed.image.InRange ∧ packed.coll.state ≠ .running ∧ legOfCode (2 : Byte).toNat = some 2
      ∧ criterionOfCode (1 : Byte).toNat = some .marked ∧ packed.findCapture 43 2 = none
      ∧ (packed.findCapture 42 2).isSome = true :=
  ⟨by decide +kernel, packed_captures, packed_image, by decide +kernel, by decide, by decide, by decide +kernel,
    by decide +kernel⟩

theorem test_witness_LocateBlinks :
    let s := trunk.modPort fun p => { p with locate := true, blinkTimer := some 9 }
    trunk.phase = .running ∧ trunk.port.locate = false ∧ s.port.locate = true ∧ s.port.blinkTimer = some 9
      ∧ 2 ≤ (2 : Byte).toNat := by decide +kernel

theorem test_witness_BodiesDecodeAsEncoded :
    (beaconOf1.frontClass = 2 ∧ beaconOf1.summaries ≠ [] ∧ (∀ x ∈ beaconOf1.summaries, 1 ≤ x.leg.val)
        ∧ beaconOf1.summaries.Pairwise (fun x y => x.leg ≠ y.leg))
      ∧ (alertCodeKnown 15 = true ∧ (15 : Nat) ≤ 15) ∧ 1 ≤ (8 : Leg).val
      ∧ (let p := parcelOf 255 false false false 4
         1 ≤ p.leg.val ∧ parcelBytes p.groups.length (digestCount p.groups) ≤ 24
          ∧ ∀ g ∈ p.groups, -128 ≤ g.1 ∧ g.1 ≤ 127 ∧ g.2 ≠ [] ∧ g.2.length ≤ 4
            ∧ ∀ x ∈ g.2, x.frontTail ≤ 17 ∧ x.cableTail ≤ 17 ∧ x.frontU ≤ 255 ∧ x.cableU ≤ 255) := by decide +kernel

theorem test_witness_StepKeepsInvariants :
    (UntouchedBeforeLoad packed ∧ AttentionFollowsCauses packed ∧ RosterInOrder packed ∧ CollectionInBounds packed
        ∧ QueuesWithinCapacity packed) ∧ ∃ t : State, step packed = .next t := by
  refine ⟨⟨?_, ?_, ?_, ?_, ?_⟩, _, rfl⟩
  · exact fun h => absurd (by decide +kernel) h
  · unfold AttentionFollowsCauses; decide +kernel
  · unfold RosterInOrder; decide +kernel
  · unfold CollectionInBounds; decide +kernel
  · unfold QueuesWithinCapacity; decide +kernel

theorem test_witness_StepKeepsInvariants_more :
    HistoryInOrder packed ∧ JoinsInOrder packed ∧ TransmittersFollowTables packed ∧ ReadinessIsCurrent packed := by
  refine ⟨⟨packed_image, ?_, ?_, packed_captures⟩, ?_, ?_, ?_⟩
  · unfold ContextsOfPlan; decide +kernel
  · have h : ∀ L : Leg, ((packed.ctx? L).map Ctx.ring).getD [] = [] := by decide +kernel
    intro L c hc
    have e := h L
    rw [hc] at e
    rw [show c.ring = [] from e]
    exact ⟨Nat.zero_le _, rfl⟩
  · intro cls
    cases cls <;> decide +kernel
  · unfold TransmittersFollowTables; decide +kernel
  · have h : ∀ L : Leg, ((packed.ctx? L).map fun c =>
        decide (c.cableOk = (packed.cableFail L).isNone ∧ c.frontOk = (packed.frontFail L).isNone)).getD true = true := by
      decide +kernel
    intro L c hc
    have e := h L
    rw [hc] at e
    simpa using e

/-- What a run through the contexts of a state decides holds of each. -/
theorem of_each_ctx {s : State} (P : Leg → Ctx → Prop) [∀ L c, Decidable (P L c)]
    (h : ((List.finRange 9).all fun L => (s.ctx? L).all fun c => decide (P L c)) = true) (L : Leg) (c : Ctx)
    (hc : s.ctx? L = some c) : P L c := by
  have := List.all_eq_true.mp h L (List.mem_finRange L)
  rw [hc] at this
  exact of_decide_eq_true this

theorem test_witness_StepKeepsInvariants_lanes :
    UnusedLanesQuiet packed ∧ PresentWhileTracking (received 0 .locked) ∧ MarkersOnlyLocked (marked .inLock 0)
      ∧ TapsStayInRange packed := by
  refine ⟨?_, ?_, ?_, packed_image, ?_⟩
  · unfold UnusedLanesQuiet; decide +kernel
  · unfold PresentWhileTracking; decide +kernel
  · unfold MarkersOnlyLocked; decide +kernel
  · unfold TapsInRange; decide +kernel

theorem test_witness_StepKeepsInvariants_legs :
    DormancyTimerRuns trunk ∧ TimersFitState trunk ∧ StrainInRange trunk ∧ OutOfPlanKeepsQuiet misplaced := by
  refine ⟨of_each_ctx (s := trunk)
      (fun L c => c.dormancy.isSome = (c.state.awake && !c.mismatchHeld && !trunk.frontPresent L)) (by decide +kernel),
    of_each_ctx (s := trunk) (fun _ c => c.solo.isSome = (c.state == .ready) ∧ (c.up.isSome → c.state = .up)
      ∧ (c.check.isSome → c.state = .check) ∧ (c.supervision.isSome → c.state = .check)
      ∧ (c.release.isSome → c.state = .check ∧ c.claim = false ∧ c.check = none ∧ c.supervision = none)
      ∧ c.claimWait.isSome = (c.claim && c.state != .check) ∧ (c.held = true → c.state = .faulted)
      ∧ (c.unattended = true → c.state = .up)) (by decide +kernel),
    of_each_ctx (s := trunk) (fun _ c => c.front.strain ≤ 4095 ∧ c.cable.strain ≤ 4095 ∧ c.retry ≤ 7) (by decide +kernel),
    fun _ _ => ⟨by unfold Line.silent; decide +kernel,
      of_each_ctx (s := misplaced) (fun _ c => c.state = .faulted ∧ c.cause = .planMismatch ∧ c.held = true
        ∧ c.claim = false ∧ c.solo = none ∧ c.faultHold = none ∧ c.dormancy = none ∧ c.up = none ∧ c.claimWait = none
        ∧ c.check = none ∧ c.supervision = none ∧ c.release = none) (by decide +kernel)⟩⟩

end Sys2Proof.Tests
end

section
/-! PROOFS. One segment at the interval close: its tail, density, strain and grade in the words of R88 to R93, and how the
close of a station reaches each of its contexts. -/

namespace Sys2Proof.Machine

/-! ## The tail (R88) -/

/-- Where no member of a list is counted, the search for the largest keeps what it has. -/
theorem foldl_counted_of_none (h : Vector Nat 16) {ks : List (Fin 16)} (t : Nat) (hz : ∀ k ∈ ks, h.get k = 0) :
    ks.foldl (fun t k => if 0 < h.get k then k.val else t) t = t := by
  induction ks with
  | nil => rfl
  | cons k ks ih =>
    have hk : ¬ 0 < h.get k := by simp [hz k List.mem_cons_self]
    rw [List.foldl_cons, if_neg hk]
    exact ih fun j hj => hz j (List.mem_cons_of_mem _ hj)

/-- In an ascending list the search ends with the member above which nothing is counted. -/
theorem foldl_counted_of_largest (h : Vector Nat 16) {k : Fin 16} (hk : 0 < h.get k)
    (hz : ∀ j : Fin 16, k < j → h.get j = 0) {ks : List (Fin 16)} (hs : ks.Pairwise (· < ·)) (hm : k ∈ ks) (t : Nat) :
    ks.foldl (fun t k => if 0 < h.get k then k.val else t) t = k.val := by
  induction ks generalizing t with
  | nil => cases hm
  | cons j ks ih =>
    obtain ⟨hj, hs⟩ := List.pairwise_cons.mp hs
    rw [List.foldl_cons]
    rcases List.mem_cons.mp hm with rfl | hm
    · rw [if_pos hk]
      exact foldl_counted_of_none h _ fun i hi => hz i (hj i hi)
    · exact ih hs hm _

theorem largestErrored_eq {h : Vector Nat 16} {k : Fin 16} (hk : 0 < h.get k)
    (hz : ∀ j : Fin 16, k < j → h.get j = 0) : largestErrored h = k.val :=
  foldl_counted_of_largest h hk hz (ks := List.finRange 16) (List.pairwise_lt_finRange 16) (List.mem_finRange k) 0

theorem largestErrored_lt (h : Vector Nat 16) : largestErrored h < 16 :=
  List.foldlRecOn (motive := (· < 16)) (List.finRange 16) _ (by decide) fun t ht k _ => by
    split
    · exact k.isLt
    · exact ht

section Tail
variable {a : Accum}

theorem tailOf_of_loss (h : a.loss = true) : tailOf a = 17 := if_pos h

theorem tailOf_of_uncorrectable (h : a.loss = false) (hu : 0 < a.u) : tailOf a = 16 := by
  simp [tailOf, h, hu]

theorem tailOf_of_idle (h : a.loss = false) (hu : a.u = 0) (hn : a.n = 0) : tailOf a = 0 := by
  simp [tailOf, h, hu, hn]

theorem tailOf_of_counted (h : a.loss = false) (hu : a.u = 0) (hn : 0 < a.n) : tailOf a = largestErrored a.h := by
  simp [tailOf, h, hu, hn.ne']

theorem tailOf_lt (a : Accum) : tailOf a < 18 := by
  have := largestErrored_lt a.h
  unfold tailOf
  split
  · decide
  split
  · decide
  split
  · decide
  · omega

end Tail

/-! ## The density (R89) -/

/-- H[0] adds nothing to the sum S. -/
theorem erroredSum_eq (a : Accum) : erroredSum a = (∑ k : Fin 16, k.val * a.h.get k) + 16 * a.u := by
  simp [erroredSum, Fin.sum_univ_succ]
  ring

theorem densityOf_eq (a : Accum) :
    densityOf a = if a.n = 0 then 0
      else min 16384 (((∑ k : Fin 16, k.val * a.h.get k) + 16 * a.u) * 1024 / a.n) := by
  rw [densityOf, erroredSum_eq]

/-! ## The strain (R91, R92) -/

theorem incrementOf_eq (img : Image) {a : Accum} {i : Fin 18} (h : i.val = tailOf a) :
    incrementOf img a = img.penalty.get i + 4 * min a.u 64 := by
  rw [incrementOf, ← h, Vector.get_eq_getElem]
  simp

/-- Subtraction that stops at 0 is the lower end of the clamp. -/
theorem strainAfter_eq_clamp (x inc dk : Nat) :
    (strainAfter x inc dk : Int) = max 0 (min 4095 ((x : Int) + inc - dk)) := by
  unfold strainAfter
  omega

theorem strainAfter_le (x inc dk : Nat) : strainAfter x inc dk ≤ 4095 := Nat.min_le_left ..

/-! ## The record of a segment -/

section SegRecord
variable (img : Image) (x : Seg)

theorem segRecord_strain :
    (segRecord img x).strain = strainAfter x.strain (incrementOf img x.acc) img.decay := rfl

theorem segRecord_grade : (segRecord img x).grade = gradeAfter img x.grade (segRecord img x).strain := rfl

theorem closeSeg_strain : (closeSeg img x).strain = (segRecord img x).strain := rfl
theorem closeSeg_grade : (closeSeg img x).grade = (segRecord img x).grade := rfl
theorem closeSeg_failEntries : (closeSeg img x).failEntries =
    if x.grade ≠ .fail ∧ (segRecord img x).grade = .fail then satInc 65535 x.failEntries else x.failEntries := rfl

end SegRecord

/-! ## The close of one context among those of the station (R85) -/

/-- The newest record of a closed context is that of the close. -/
theorem closeCtx_getLast? (img : Image) (n : IntervalNo) (c : Ctx) :
    (closeCtx img n c).ring.getLast? = some (ctxRecord img n c) := List.getLast?_concat

section Close
variable {L : Leg} {s : State}

@[simp] theorem fillCaptures_ctx? (r : Record) (M : Leg) : (fillCaptures L r s).ctx? M = s.ctx? M := by
  unfold fillCaptures
  simp only
  split
  · obtain ⟨K, hK⟩ := exists_ne M
    exact (LegFrame.setCause (L := K) _ _).ctxs M hK.symm
  · rfl

@[simp] theorem fillCaptures_image (r : Record) : (fillCaptures L r s).image = s.image := by
  unfold fillCaptures
  simp only
  split
  · exact (LegFrame.setCause (L := L) _ _).image
  · rfl

theorem closeLeg_image (n : IntervalNo) : (closeLeg n L s).image = s.image := by simp [closeLeg]

theorem closeLeg_ctx? (n : IntervalNo) : (closeLeg n L s).ctx? L = (s.ctx? L).map (closeCtx s.image n) := by
  simp [closeLeg]

theorem closeLeg_ctx?_ne (n : IntervalNo) {M : Leg} (h : L ≠ M) : (closeLeg n M s).ctx? L = s.ctx? L := by
  simp [closeLeg, State.ctx?_modCtx_ne _ _ h]

theorem forLegs_closeLeg_ctx?_of_notMem (n : IntervalNo) {ls : List Leg} (h : L ∉ ls) :
    (forLegs (closeLeg n) ls s).ctx? L = s.ctx? L := by
  induction ls generalizing s with
  | nil => rfl
  | cons M ls ih =>
    obtain ⟨hM, hls⟩ := not_or.mp (List.mem_cons.not.mp h)
    exact (ih hls).trans (closeLeg_ctx?_ne n hM)

/-- Each context named once is closed once, from its own values and with the image all share. -/
theorem forLegs_closeLeg_ctx? (n : IntervalNo) {ls : List Leg} (hd : ls.Nodup) (h : L ∈ ls) :
    (forLegs (closeLeg n) ls s).ctx? L = (s.ctx? L).map (closeCtx s.image n) := by
  induction ls generalizing s with
  | nil => cases h
  | cons M ls ih =>
    obtain ⟨hM, hd⟩ := List.nodup_cons.mp hd
    by_cases e : L = M
    · subst e
      exact (forLegs_closeLeg_ctx?_of_notMem n hM).trans (closeLeg_ctx? n)
    · have hls : L ∈ ls := (List.mem_cons.mp h).resolve_left e
      refine (ih hd hls).trans ?_
      rw [closeLeg_ctx?_ne n e, closeLeg_image]

theorem State.legs_nodup (s : State) : s.legs.Nodup := List.Nodup.filter _ (by decide : allLegs.Nodup)

/-! ## Handing on leaves strain, grade and ring (R85 step 6) -/

theorem Ctx.SameHistory.refl (a : Ctx) : a.SameHistory a := ⟨rfl, rfl, rfl, rfl⟩

theorem Ctx.SameHistory.trans {a b c : Ctx} (h : a.SameHistory b) (g : b.SameHistory c) : a.SameHistory c where
  front := by rw [g.front, h.front]
  cable := by rw [g.cable, h.cable]
  grade := g.grade.trans h.grade
  ring := g.ring.trans h.ring

/-- Context `L` is there and is `a` but for what the leg controller changes. -/
def HoldsHistory (L : Leg) (a : Ctx) (t : State) : Prop := ∃ c : Ctx, t.ctx? L = some c ∧ a.SameHistory c

theorem HoldsHistory.of_ctx? {a : Ctx} {t u : State} (h : HoldsHistory L a t) (e : u.ctx? L = t.ctx? L) :
    HoldsHistory L a u := by
  obtain ⟨c, hc, hs⟩ := h
  exact ⟨c, e.trans hc, hs⟩

/-- What acts on no context keeps the history of each. -/
theorem HoldsHistory.of_frames {a : Ctx} {t u : State} (h : HoldsHistory L a t) (f : ∀ M, LegFrame M t u) :
    HoldsHistory L a u := by
  obtain ⟨M, hM⟩ := exists_ne L
  exact h.of_ctx? ((f M).ctxs L hM.symm)

theorem HoldsHistory.modCtx {a : Ctx} {t : State} (h : HoldsHistory L a t) (M : Leg) {f : Ctx → Ctx}
    (hf : ∀ c : Ctx, c.SameHistory (f c)) : HoldsHistory L a (t.modCtx M f) := by
  by_cases e : L = M
  · subst e
    obtain ⟨c, hc, hs⟩ := h
    exact ⟨f c, by simp [hc], hs.trans (hf c)⟩
  · exact h.of_ctx? (t.ctx?_modCtx_ne f e)

theorem State.tryTuning_ctx? (k : FLane) (s : State) (M : Leg) : (s.tryTuning k).ctx? M = s.ctx? M := by
  unfold State.tryTuning
  split
  · split
    · rfl
    · split <;> rfl
  · rfl

/-- Whatever the leg controller does for a context `M`, it keeps the history of context `L`. -/
theorem HoldsHistory.closed (L : Leg) (a : Ctx) (M : Leg) : LegClosed M (HoldsHistory L a) where
  evalTx h := h.of_ctx? rfl
  ctx hf h := h.modCtx M hf
  tune _ h := h.of_ctx? (State.tryTuning_ctx? ..)
  restart _ h := h.of_ctx? rfl
  wait _ h := h.of_ctx? rfl
  arm _ h := h.of_ctx? rfl
  disarm _ h := h.of_ctx? rfl
  cause _ h := h.of_frames fun _ => .setCause ..
  notice h := h.of_frames fun _ => .changeNotice _
  sleep _ h := h.of_frames fun _ => .queueSleep ..
  origin _ _ _ h := h.of_frames fun _ => .originate ..

/-- INTERVAL_CLOSE closes the context of each leg; what it hands on then leaves the history of the context. -/
theorem exec_intervalClose_history {c : Ctx} (hr : s.phase = .running) (hL : L ∈ s.legs) (hc : s.ctx? L = some c) :
    ∃ t : State, exec .intervalClose s = .next t ∧ HoldsHistory L (closeCtx s.image s.interval c) t := by
  refine ⟨_, if_neg (not_not_intro hr), ?_⟩
  refine forLegs_keeps (P := HoldsHistory L (closeCtx s.image s.interval c))
    (fun M t ht => (HoldsHistory.closed L _ M).handClose ht s.interval _) s.legs ?_
  refine ⟨_, ?_, .refl _⟩
  exact (forLegs_closeLeg_ctx? (s := s.reach s.intervalEnd) s.interval s.legs_nodup hL).trans (by simp [hc])

/-- A context after INTERVAL_CLOSE: its newest record is that of the closing interval, and its segments are the closed
ones but for their last reasons. -/
theorem exec_intervalClose_ctx {c : Ctx} (hr : s.phase = .running) (hL : L ∈ s.legs) (hc : s.ctx? L = some c) :
    ∃ (t : State) (c' : Ctx), exec .intervalClose s = .next t ∧ t.ctx? L = some c'
      ∧ c'.ring.getLast? = some (ctxRecord s.image s.interval c)
      ∧ c'.front = { closeSeg s.image c.front with lastReason := c'.front.lastReason }
      ∧ c'.cable = { closeSeg s.image c.cable with lastReason := c'.cable.lastReason } := by
  obtain ⟨t, ht, c', hc', hs⟩ := exec_intervalClose_history hr hL hc
  refine ⟨t, c', ht, hc', ?_, hs.front, hs.cable⟩
  rw [hs.ring, closeCtx_getLast?]

end Close

/-! ## The statements -/

/-- Settles O28: the record at the ring's end is that of the close, and each of its parts is read row by row of R88 and by
the quotient of R89. -/
theorem recordTailAndDensity : Obligations.RecordTailAndDensity := by
  intro L c s hr hL hc
  obtain ⟨t, c', ht, hc', hring, -, -⟩ := exec_intervalClose_ctx hr hL hc
  refine ⟨t, c', ctxRecord s.image s.interval c, ht, hc', hring, ?_⟩
  intro a y h
  obtain ⟨x, rfl, rfl⟩ : ∃ x : Seg, x.acc = a ∧ segRecord s.image x = y := by
    rcases h with ⟨rfl, rfl⟩ | ⟨rfl, rfl⟩
    · exact ⟨c.front, rfl, rfl⟩
    · exact ⟨c.cable, rfl, rfl⟩
  exact ⟨tailOf_of_loss, tailOf_of_uncorrectable, tailOf_of_idle,
    fun hl hu hn k hk hz => (tailOf_of_counted hl hu hn).trans (largestErrored_eq hk hz),
    densityOf_eq x.acc, rfl, rfl, rfl, rfl⟩

/-- Settles O29: the closed segment carries the strain and grade of its record, the clamp of R92 being what subtraction that
stops at 0 leaves, and the table of R93 standing grade by grade. -/
theorem strainAndGradeFollowTables : Obligations.StrainAndGradeFollowTables := by
  intro L c s hr hL hc
  obtain ⟨t, c', ht, hc', hring, hfront, hcable⟩ := exec_intervalClose_ctx hr hL hc
  refine ⟨t, c', ctxRecord s.image s.interval c, ht, hc', hring, ?_⟩
  intro x z y h
  obtain ⟨rfl, hz⟩ : segRecord s.image x = y ∧ z = { closeSeg s.image x with lastReason := z.lastReason } := by
    rcases h with ⟨rfl, rfl, rfl⟩ | ⟨rfl, rfl, rfl⟩
    · exact ⟨rfl, hfront⟩
    · exact ⟨rfl, hcable⟩
  refine ⟨fun i hi => ?_, tailOf_lt x.acc, strainAfter_le .., ?_, ?_, ?_, ?_⟩
  · rw [segRecord_strain, incrementOf_eq s.image hi, strainAfter_eq_clamp]
  · rw [hz, closeSeg_strain]
  · rw [hz, closeSeg_grade]
  · rw [segRecord_grade]
    cases x.grade <;> rfl
  · rw [hz, closeSeg_failEntries]

end Sys2Proof.Machine
end
